-- ==== Sys2Proof/Word.lean ====
section
/-!
DEFINITION. The word types of the Clever ISA: a memory byte has 8 bits, a register and an address 64 (00 R7).
-/

namespace Sys2Proof

/-- A memory byte (00 R7). -/
abbrev Byte := BitVec 8

/-- A register value or an address: 64 bits (00 R7). Arithmetic on it is modulo 2^64 (00 R12). -/
abbrev Word := BitVec 64

end Sys2Proof
end

