-- ==== Sys2Proof/Syntax.lean ====
section
/-!
DEFINITION. The instructions as data: operand forms (30 R186 to R189), condition codes (45 R425), followers of a repeat prefix
(42 R331), and Instr, one constructor per row of spec/opcode_table.json.
-/

namespace Sys2Proof

/-- A size control `log2(size)`: 1, 2, 4 or 8 bytes (00 R11, 30 R186). -/
inductive Size where
  | b8
  | b16
  | b32
  | b64
deriving DecidableEq, Repr

/-- A long immediate of 2, 4 or 8 bytes (30 R189, 45 R420). -/
inductive Imm where
  | i16 (v : BitVec 16)
  | i32 (v : BitVec 32)
  | i64 (v : BitVec 64)
deriving DecidableEq, Repr

/-- The offset field of an indirect operand: an unsigned 4-bit number (`k` = 1) or a gpr (`k` = 0) (30 R187). -/
inductive Index where
  | num (o : BitVec 4)
  | gpr (o : BitVec 4)
deriving DecidableEq, Repr

/-- One operand control structure with its immediate (30 R185). -/
inductive Operand where
  /-- Register operand, any register number (30 R186). -/
  | reg (sz : Size) (r : BitVec 8)
  /-- Indirect register: base + index * 2^scale (30 R187). -/
  | ind (index : Index) (scale : BitVec 3) (sz : Size) (base : BitVec 4)
  /-- Short immediate, ip-relative when `rel` (30 R188). -/
  | short (rel : Bool) (imm : BitVec 12)
  /-- Long immediate (30 R189, m = 0). -/
  | long (rel : Bool) (imm : Imm)
  /-- Memory reference (30 R189, m = 1): `sz` is the size of the referent. -/
  | mref (rel : Bool) (imm : Imm) (sz : Size)
deriving DecidableEq, Repr

/-- The sixteen condition codes (45 R425), in the order of their numbers. -/
inductive Cond where
  | p  -- Parity
  | c  -- Carry
  | v  -- Overflow
  | z  -- Zero/Eq
  | lt  -- Less Than
  | le  -- Less or Eq
  | be  -- Below or Eq
  | mi  -- Minus
  | pl  -- Plus
  | a  -- Above
  | gt  -- Greater
  | ge  -- Greater/Eq
  | nz  -- Not Zero/Eq
  | nv  -- No Overflow
  | nc  -- No Carry
  | np  -- No Parity
deriving DecidableEq, Repr

/-- What follows a repeat prefix (42 R331): a block operation, `in` or `out`; any other word is kept and raises UND. -/
inductive Follower where
  | bcpy (ss : Size)
  | bsto (ss : Size)
  | bsca (ss : Size)
  | bcmp (ss : Size)
  | btst (ss : Size)
  | inp (ss : Size)
  | outp (ss : Size)
  | invalid (w : BitVec 16)
deriving DecidableEq, Repr

/-- The instructions. `l`, `f`, `w`, `v` are the bits of `h` with those names, `rel` is the bit `r` of a branch, `r` a gpr number,
`ss` a size control; `a`, `b`, `c` are the operands in order, the destination first. -/
inductive Instr where
  /-- und, opcode 0x000 (40 R240) -/
  | und000 (h : BitVec 4)
  /-- und, opcode 0xfff (40 R240) -/
  | undFff (h : BitVec 4)
  /-- 0x001 (40 R243) -/
  | add (l f : Bool) (a b : Operand)
  /-- 0x002 (40 R244) -/
  | sub (l f : Bool) (a b : Operand)
  /-- 0x003 (40 R245) -/
  | and (l f : Bool) (a b : Operand)
  /-- 0x004 (40 R246) -/
  | or (l f : Bool) (a b : Operand)
  /-- 0x005 (40 R247) -/
  | xor (l f : Bool) (a b : Operand)
  /-- 0x006 (40 R251) -/
  | mul (ss : Size) (f : Bool)
  /-- 0x007 (40 R252) -/
  | div (ss : Size) (w f : Bool)
  /-- 0x040 (40 R253) -/
  | imul (ss : Size) (f : Bool)
  /-- 0x048 (40 R254) -/
  | idiv (ss : Size) (w f : Bool)
  /-- 0x008 (41 R280) -/
  | mov (a b : Operand)
  /-- 0x009 (41 R281) -/
  | lea (a b : Operand)
  /-- 0x00a (41 R282) -/
  | movrToGpr (r : BitVec 4) (a : Operand)
  /-- 0x00b (41 R283) -/
  | movrFromGpr (r : BitVec 4) (a : Operand)
  /-- 0x00c (41 R284) -/
  | lear (r : BitVec 4) (a : Operand)
  /-- 0x010 (41 R290) -/
  | nop0
  /-- 0x011 (41 R290) -/
  | nop1 (a : Operand)
  /-- 0x012 (41 R290) -/
  | nop2 (a b : Operand)
  /-- 0x013 (41 R290) -/
  | nop3 (a b c : Operand)
  /-- 0x014 (41 R295) -/
  | push (a : Operand)
  /-- 0x015 (41 R296) -/
  | pop (a : Operand)
  /-- 0x016 (41 R297) -/
  | pushr (r : BitVec 4)
  /-- 0x017 (41 R298) -/
  | popr (r : BitVec 4)
  /-- 0x018 (41 R302) -/
  | stogpr (a : Operand)
  /-- 0x019 (41 R303) -/
  | stoar (a : Operand)
  /-- 0x01a (41 R304) -/
  | rstogpr (a : Operand)
  /-- 0x01b (41 R305) -/
  | rstoar (a : Operand)
  /-- 0x01c (41 R306) -/
  | pushgpr
  /-- 0x01d (41 R307) -/
  | pushar
  /-- 0x01e (41 R308) -/
  | popgpr
  /-- 0x01f (41 R309) -/
  | popar
  /-- 0x020 (41 R315) -/
  | movsx (f : Bool) (a b : Operand)
  /-- 0x021 (41 R316) -/
  | bswap (f : Bool) (a b : Operand)
  /-- 0x028 with its follower (42 R332) -/
  | repbi (cc : Cond) (fo : Follower)
  /-- 0x029 with its follower (42 R333) -/
  | repbc (cc : Cond) (fo : Follower)
  /-- 0x02a (42 R335) -/
  | bcpy (ss : Size)
  /-- 0x02b (42 R336) -/
  | bsto (ss : Size)
  /-- 0x02c (42 R337) -/
  | bsca (ss : Size)
  /-- 0x02d (42 R338) -/
  | bcmp (ss : Size)
  /-- 0x02e (42 R339) -/
  | btst (ss : Size)
  /-- 0x030 (43 R352) -/
  | lsh (l f : Bool) (a b : Operand)
  /-- 0x031 (43 R353) -/
  | rsh (l f : Bool) (a b : Operand)
  /-- 0x032 (43 R354) -/
  | arsh (l f : Bool) (a b : Operand)
  /-- 0x033 (43 R355) -/
  | lshc (l f : Bool) (a b : Operand)
  /-- 0x034 (43 R356) -/
  | rshc (l f : Bool) (a b : Operand)
  /-- 0x035 (43 R357) -/
  | lrot (l f : Bool) (a b : Operand)
  /-- 0x036 (43 R358) -/
  | rrot (l f : Bool) (a b : Operand)
  /-- 0x038 (43 R359) -/
  | lshr (r : BitVec 4) (a : Operand)
  /-- 0x039 (43 R359) -/
  | rshr (r : BitVec 4) (a : Operand)
  /-- 0x03a (43 R359) -/
  | arshr (r : BitVec 4) (a : Operand)
  /-- 0x03b (43 R359) -/
  | lshcr (r : BitVec 4) (a : Operand)
  /-- 0x03c (43 R359) -/
  | rshcr (r : BitVec 4) (a : Operand)
  /-- 0x03d (43 R359) -/
  | lrotr (r : BitVec 4) (a : Operand)
  /-- 0x03e (43 R359) -/
  | rrotr (r : BitVec 4) (a : Operand)
  /-- 0x041 (43 R370) -/
  | addrGprDst (r : BitVec 4) (a : Operand)
  /-- 0x042 (43 R370) -/
  | subrGprDst (r : BitVec 4) (a : Operand)
  /-- 0x043 (43 R370) -/
  | andrGprDst (r : BitVec 4) (a : Operand)
  /-- 0x044 (43 R370) -/
  | orrGprDst (r : BitVec 4) (a : Operand)
  /-- 0x045 (43 R370) -/
  | xorrGprDst (r : BitVec 4) (a : Operand)
  /-- 0x046 (43 R363) -/
  | bnot (l f : Bool) (a : Operand)
  /-- 0x047 (43 R364) -/
  | neg (l f : Bool) (a : Operand)
  /-- 0x049 (43 R371) -/
  | addrGprSrc (r : BitVec 4) (a : Operand)
  /-- 0x04a (43 R371) -/
  | subrGprSrc (r : BitVec 4) (a : Operand)
  /-- 0x04b (43 R371) -/
  | andrGprSrc (r : BitVec 4) (a : Operand)
  /-- 0x04c (43 R371) -/
  | orrGprSrc (r : BitVec 4) (a : Operand)
  /-- 0x04d (43 R371) -/
  | xorrGprSrc (r : BitVec 4) (a : Operand)
  /-- 0x04e (43 R365) -/
  | bnotr (r : BitVec 4)
  /-- 0x04f (43 R366) -/
  | negr (r : BitVec 4)
  /-- 0x06c (43 R380) -/
  | cmp (a b : Operand)
  /-- 0x06d (43 R381) -/
  | test (a b : Operand)
  /-- 0x06e (43 R382) -/
  | cmpr (r : BitVec 4) (a : Operand)
  /-- 0x06f (43 R383) -/
  | testr (r : BitVec 4) (a : Operand)
  /-- 0x200 (44 R402) -/
  | xchg (a b : Operand)
  /-- 0x201 (44 R403) -/
  | cmpxchg (a b c : Operand)
  /-- 0x202 (44 R404) -/
  | wcmpxchg (a b c : Operand)
  /-- 0x203 (44 R406) -/
  | fence
  /-- 0x700, 0x710 (45 R426) -/
  | jp16 (rel : Bool) (weight : BitVec 4) (imm : BitVec 16)
  /-- 0x701, 0x711 (45 R426) -/
  | jc16 (rel : Bool) (weight : BitVec 4) (imm : BitVec 16)
  /-- 0x702, 0x712 (45 R426) -/
  | jv16 (rel : Bool) (weight : BitVec 4) (imm : BitVec 16)
  /-- 0x703, 0x713 (45 R426) -/
  | jz16 (rel : Bool) (weight : BitVec 4) (imm : BitVec 16)
  /-- 0x704, 0x714 (45 R426) -/
  | jlt16 (rel : Bool) (weight : BitVec 4) (imm : BitVec 16)
  /-- 0x705, 0x715 (45 R426) -/
  | jle16 (rel : Bool) (weight : BitVec 4) (imm : BitVec 16)
  /-- 0x706, 0x716 (45 R426) -/
  | jbe16 (rel : Bool) (weight : BitVec 4) (imm : BitVec 16)
  /-- 0x707, 0x717 (45 R426) -/
  | jmi16 (rel : Bool) (weight : BitVec 4) (imm : BitVec 16)
  /-- 0x708, 0x718 (45 R426) -/
  | jpl16 (rel : Bool) (weight : BitVec 4) (imm : BitVec 16)
  /-- 0x709, 0x719 (45 R426) -/
  | ja16 (rel : Bool) (weight : BitVec 4) (imm : BitVec 16)
  /-- 0x70a, 0x71a (45 R426) -/
  | jgt16 (rel : Bool) (weight : BitVec 4) (imm : BitVec 16)
  /-- 0x70b, 0x71b (45 R426) -/
  | jge16 (rel : Bool) (weight : BitVec 4) (imm : BitVec 16)
  /-- 0x70c, 0x71c (45 R426) -/
  | jnz16 (rel : Bool) (weight : BitVec 4) (imm : BitVec 16)
  /-- 0x70d, 0x71d (45 R426) -/
  | jnv16 (rel : Bool) (weight : BitVec 4) (imm : BitVec 16)
  /-- 0x70e, 0x71e (45 R426) -/
  | jnc16 (rel : Bool) (weight : BitVec 4) (imm : BitVec 16)
  /-- 0x70f, 0x71f (45 R426) -/
  | jnp16 (rel : Bool) (weight : BitVec 4) (imm : BitVec 16)
  /-- 0x740, 0x750 (45 R426) -/
  | jp32 (rel : Bool) (weight : BitVec 4) (imm : BitVec 32)
  /-- 0x741, 0x751 (45 R426) -/
  | jc32 (rel : Bool) (weight : BitVec 4) (imm : BitVec 32)
  /-- 0x742, 0x752 (45 R426) -/
  | jv32 (rel : Bool) (weight : BitVec 4) (imm : BitVec 32)
  /-- 0x743, 0x753 (45 R426) -/
  | jz32 (rel : Bool) (weight : BitVec 4) (imm : BitVec 32)
  /-- 0x744, 0x754 (45 R426) -/
  | jlt32 (rel : Bool) (weight : BitVec 4) (imm : BitVec 32)
  /-- 0x745, 0x755 (45 R426) -/
  | jle32 (rel : Bool) (weight : BitVec 4) (imm : BitVec 32)
  /-- 0x746, 0x756 (45 R426) -/
  | jbe32 (rel : Bool) (weight : BitVec 4) (imm : BitVec 32)
  /-- 0x747, 0x757 (45 R426) -/
  | jmi32 (rel : Bool) (weight : BitVec 4) (imm : BitVec 32)
  /-- 0x748, 0x758 (45 R426) -/
  | jpl32 (rel : Bool) (weight : BitVec 4) (imm : BitVec 32)
  /-- 0x749, 0x759 (45 R426) -/
  | ja32 (rel : Bool) (weight : BitVec 4) (imm : BitVec 32)
  /-- 0x74a, 0x75a (45 R426) -/
  | jgt32 (rel : Bool) (weight : BitVec 4) (imm : BitVec 32)
  /-- 0x74b, 0x75b (45 R426) -/
  | jge32 (rel : Bool) (weight : BitVec 4) (imm : BitVec 32)
  /-- 0x74c, 0x75c (45 R426) -/
  | jnz32 (rel : Bool) (weight : BitVec 4) (imm : BitVec 32)
  /-- 0x74d, 0x75d (45 R426) -/
  | jnv32 (rel : Bool) (weight : BitVec 4) (imm : BitVec 32)
  /-- 0x74e, 0x75e (45 R426) -/
  | jnc32 (rel : Bool) (weight : BitVec 4) (imm : BitVec 32)
  /-- 0x74f, 0x75f (45 R426) -/
  | jnp32 (rel : Bool) (weight : BitVec 4) (imm : BitVec 32)
  /-- 0x780, 0x790 (45 R426) -/
  | jp64 (rel : Bool) (weight : BitVec 4) (imm : BitVec 64)
  /-- 0x781, 0x791 (45 R426) -/
  | jc64 (rel : Bool) (weight : BitVec 4) (imm : BitVec 64)
  /-- 0x782, 0x792 (45 R426) -/
  | jv64 (rel : Bool) (weight : BitVec 4) (imm : BitVec 64)
  /-- 0x783, 0x793 (45 R426) -/
  | jz64 (rel : Bool) (weight : BitVec 4) (imm : BitVec 64)
  /-- 0x784, 0x794 (45 R426) -/
  | jlt64 (rel : Bool) (weight : BitVec 4) (imm : BitVec 64)
  /-- 0x785, 0x795 (45 R426) -/
  | jle64 (rel : Bool) (weight : BitVec 4) (imm : BitVec 64)
  /-- 0x786, 0x796 (45 R426) -/
  | jbe64 (rel : Bool) (weight : BitVec 4) (imm : BitVec 64)
  /-- 0x787, 0x797 (45 R426) -/
  | jmi64 (rel : Bool) (weight : BitVec 4) (imm : BitVec 64)
  /-- 0x788, 0x798 (45 R426) -/
  | jpl64 (rel : Bool) (weight : BitVec 4) (imm : BitVec 64)
  /-- 0x789, 0x799 (45 R426) -/
  | ja64 (rel : Bool) (weight : BitVec 4) (imm : BitVec 64)
  /-- 0x78a, 0x79a (45 R426) -/
  | jgt64 (rel : Bool) (weight : BitVec 4) (imm : BitVec 64)
  /-- 0x78b, 0x79b (45 R426) -/
  | jge64 (rel : Bool) (weight : BitVec 4) (imm : BitVec 64)
  /-- 0x78c, 0x79c (45 R426) -/
  | jnz64 (rel : Bool) (weight : BitVec 4) (imm : BitVec 64)
  /-- 0x78d, 0x79d (45 R426) -/
  | jnv64 (rel : Bool) (weight : BitVec 4) (imm : BitVec 64)
  /-- 0x78e, 0x79e (45 R426) -/
  | jnc64 (rel : Bool) (weight : BitVec 4) (imm : BitVec 64)
  /-- 0x78f, 0x79f (45 R426) -/
  | jnp64 (rel : Bool) (weight : BitVec 4) (imm : BitVec 64)
  /-- 0x7c0, 0x7d0 (45 R430) -/
  | jmp (rel : Bool) (imm : Imm)
  /-- 0x7c1, 0x7d1 (45 R431) -/
  | call (rel : Bool) (imm : Imm)
  /-- 0x7c2, 0x7d2 (45 R432) -/
  | fcall (rel : Bool) (imm : Imm)
  /-- 0x7c3 (45 R433) -/
  | ret
  /-- 0x7c4 (45 R450) -/
  | scall
  /-- `int`, 0x7c5 (45 R435) -/
  | intr (i : BitVec 4)
  /-- 0x7c8, 0x7d8 with h not 0xe, 0xf (45 R436) -/
  | ijmp (rel : Bool) (r : BitVec 4)
  /-- 0x7c8, 0x7d8 with h = 0xe (45 R437) -/
  | fret (rel : Bool)
  /-- 0x7c8, 0x7d8 with h = 0xf (45 R437) -/
  | ifjmp (rel : Bool)
  /-- 0x7c9, 0x7d9 (45 R438) -/
  | icall (rel : Bool) (r : BitVec 4)
  /-- 0x7ca, 0x7da (45 R439) -/
  | ifcall (rel : Bool)
  /-- 0x7cb, 0x7db (45 R440) -/
  | jsm (rel : Bool) (imm : Imm)
  /-- 0x7cc, 0x7dc (45 R441) -/
  | callsm (rel v : Bool) (imm : Imm)
  /-- 0x7cd (45 R442) -/
  | retrsm
  /-- 0xfc6 (46 R471) -/
  | scret
  /-- 0xfc7 (46 R472) -/
  | reti
  /-- 0xfe0 + lo, lo not 31 (46 R475) -/
  | machineSpecific (lo : BitVec 5) (h : BitVec 4)
  /-- 0x801 (46 R480) -/
  | halt
  /-- 0x802 (46 R485) -/
  | pcfl
  /-- 0x803 (46 R486) -/
  | flall
  /-- 0x804 (46 R487) -/
  | dflush (a : Operand)
  /-- 0x805 (46 R488) -/
  | iflush (a : Operand)
  /-- `in`, 0x806 (46 R490) -/
  | inp (ss : Size)
  /-- `out`, 0x807 (46 R491) -/
  | outp (ss : Size)
  /-- 0x808 (46 R499) -/
  | storegf (a : Operand)
  /-- 0x809 (46 R500) -/
  | rstregf (a : Operand)
deriving DecidableEq, Repr

end Sys2Proof
end

