-- ==== Sys2Proof/WellFormed.lean ====
section
/-!
DEFINITION. Which terms of Instr an encoding produces: the few places where a field of a term could name another row's encoding.
Operand constraints are not checked here: an instruction that violates one is well-formed, decodes and raises UND (30 R209 step 6).
-/

namespace Sys2Proof

/-- Is this 16-bit word one of the instructions a repeat prefix may stand before (42 R331): 0x02a0..0x02e3, 0x8060..0x8073
with `h[3:2] = 0`? -/
def isFollowerWord (w : BitVec 16) : Bool :=
  decide (w.toNat % 16 < 4) &&
    ((decide (0x02a ≤ w.toNat / 16) && decide (w.toNat / 16 ≤ 0x02e)) ||
      decide (w.toNat / 16 = 0x806) || decide (w.toNat / 16 = 0x807))

/-- A follower kept as a word is a word that is no legal follower. -/
def Follower.wellFormed : Follower → Bool
  | .invalid w => !isFollowerWord w
  | .bcpy _ | .bsto _ | .bsca _ | .bcmp _ | .btst _ | .inp _ | .outp _ => true

/-- The checks: `ijmp` does not name r14 or r15 (those words are `fret` and `ifjmp`, 45 R437), a machine-specific opcode is not
0xfff (40 R240), a follower is well-formed. -/
def WellFormed : Instr → Bool
  | .ijmp _ r => r != 14#4 && r != 15#4
  | .machineSpecific lo _ => lo != 31#5
  | .repbi _ fo => fo.wellFormed
  | .repbc _ fo => fo.wellFormed
  | .und000 _ | .undFff _ | .add _ _ _ _ | .sub _ _ _ _ | .and _ _ _ _ | .or _ _ _ _ | .xor _ _ _ _ | .mul _ _
  | .div _ _ _ | .imul _ _ | .idiv _ _ _ | .mov _ _ | .lea _ _ | .movrToGpr _ _ | .movrFromGpr _ _ | .lear _ _
  | .nop0 | .nop1 _ | .nop2 _ _ | .nop3 _ _ _ | .push _ | .pop _ | .pushr _ | .popr _ | .stogpr _ | .stoar _
  | .rstogpr _ | .rstoar _ | .pushgpr | .pushar | .popgpr | .popar | .movsx _ _ _ | .bswap _ _ _ | .bcpy _ | .bsto _
  | .bsca _ | .bcmp _ | .btst _ | .lsh _ _ _ _ | .rsh _ _ _ _ | .arsh _ _ _ _ | .lshc _ _ _ _ | .rshc _ _ _ _
  | .lrot _ _ _ _ | .rrot _ _ _ _ | .lshr _ _ | .rshr _ _ | .arshr _ _ | .lshcr _ _ | .rshcr _ _ | .lrotr _ _
  | .rrotr _ _ | .addrGprDst _ _ | .subrGprDst _ _ | .andrGprDst _ _ | .orrGprDst _ _ | .xorrGprDst _ _ | .bnot _ _ _
  | .neg _ _ _ | .addrGprSrc _ _ | .subrGprSrc _ _ | .andrGprSrc _ _ | .orrGprSrc _ _ | .xorrGprSrc _ _ | .bnotr _
  | .negr _ | .cmp _ _ | .test _ _ | .cmpr _ _ | .testr _ _ | .xchg _ _ | .cmpxchg _ _ _ | .wcmpxchg _ _ _ | .fence
  | .jp16 _ _ _ | .jc16 _ _ _ | .jv16 _ _ _ | .jz16 _ _ _ | .jlt16 _ _ _ | .jle16 _ _ _ | .jbe16 _ _ _ | .jmi16 _ _ _
  | .jpl16 _ _ _ | .ja16 _ _ _ | .jgt16 _ _ _ | .jge16 _ _ _ | .jnz16 _ _ _ | .jnv16 _ _ _ | .jnc16 _ _ _
  | .jnp16 _ _ _ | .jp32 _ _ _ | .jc32 _ _ _ | .jv32 _ _ _ | .jz32 _ _ _ | .jlt32 _ _ _ | .jle32 _ _ _ | .jbe32 _ _ _
  | .jmi32 _ _ _ | .jpl32 _ _ _ | .ja32 _ _ _ | .jgt32 _ _ _ | .jge32 _ _ _ | .jnz32 _ _ _ | .jnv32 _ _ _
  | .jnc32 _ _ _ | .jnp32 _ _ _ | .jp64 _ _ _ | .jc64 _ _ _ | .jv64 _ _ _ | .jz64 _ _ _ | .jlt64 _ _ _ | .jle64 _ _ _
  | .jbe64 _ _ _ | .jmi64 _ _ _ | .jpl64 _ _ _ | .ja64 _ _ _ | .jgt64 _ _ _ | .jge64 _ _ _ | .jnz64 _ _ _
  | .jnv64 _ _ _ | .jnc64 _ _ _ | .jnp64 _ _ _ | .jmp _ _ | .call _ _ | .fcall _ _ | .ret | .scall | .intr _
  | .fret _ | .ifjmp _ | .icall _ _ | .ifcall _ | .jsm _ _ | .callsm _ _ _ | .retrsm | .scret | .reti | .halt | .pcfl
  | .flall | .dflush _ | .iflush _ | .inp _ | .outp _ | .storegf _ | .rstregf _ => true

end Sys2Proof
end

