-- ==== Sys2Proof/Decode.lean ====
section
/-!
DEFINITION. Byte order of the instruction stream (20 R101), how many bytes an instruction has (30 R183), the decoder, total on any
bytes and rejecting by name (30 R180 to R190, R220, R221), and the encoder.
-/

namespace Sys2Proof

/-- Why bytes are no instruction: each but the last is the architecture's UND (60 R512). -/
inductive DecodeError where
  /-- An opcode that no row of 30 R220 assigns (30 R221). -/
  | unassignedOpcode
  /-- A bit of `h` that must be zero is set (30 R181). -/
  | reservedH
  /-- A malformed operand control structure (30 R190). -/
  | malformedOperand
  /-- A 16-byte immediate, `ss` = 3 (30 R189, 45 R420). -/
  | reservedImmediate
  /-- The bytes end inside the instruction; a fetch never yields this, it reads all the bytes that are needed. -/
  | truncated
deriving DecidableEq, Repr

/-! ### Byte order -/

/-- The bytes of a 16-bit word in big-endian order (20 R101). -/
def bytesBE16 (w : BitVec 16) : List Byte := [w.extractLsb' 8 8, w.extractLsb' 0 8]

/-- The value of bytes in little-endian order, lowest address first (20 R100). -/
def valueLE : List Byte → Nat
  | [] => 0
  | b :: bs => b.toNat + 256 * valueLE bs

/-- The low `n` bytes of a value in little-endian order (20 R100). -/
def bytesLE : Nat → Nat → List Byte
  | 0, _ => []
  | n + 1, v => BitVec.ofNat 8 v :: bytesLE n (v / 256)

/-! ### Fields -/

/-- The size a 2-bit size control names (30 R186). -/
def Size.ofBits (b : BitVec 2) : Size :=
  if b = 0 then .b8 else if b = 1 then .b16 else if b = 2 then .b32 else .b64

/-- The 2-bit size control of a size (30 R186). -/
def Size.toBits : Size → BitVec 2
  | .b8 => 0
  | .b16 => 1
  | .b32 => 2
  | .b64 => 3

/-- The number of bytes of a size, `1 << ss` (30 R200). -/
def Size.bytes : Size → Nat
  | .b8 => 1
  | .b16 => 2
  | .b32 => 4
  | .b64 => 8

/-- The condition a 4-bit code names (45 R425). -/
def Cond.ofCode (c : BitVec 4) : Cond :=
  match c.toNat with
  | 0 => .p
  | 1 => .c
  | 2 => .v
  | 3 => .z
  | 4 => .lt
  | 5 => .le
  | 6 => .be
  | 7 => .mi
  | 8 => .pl
  | 9 => .a
  | 10 => .gt
  | 11 => .ge
  | 12 => .nz
  | 13 => .nv
  | 14 => .nc
  | _ => .np

/-- The number of a condition code (45 R425). -/
def Cond.code : Cond → BitVec 4
  | .p => 0
  | .c => 1
  | .v => 2
  | .z => 3
  | .lt => 4
  | .le => 5
  | .be => 6
  | .mi => 7
  | .pl => 8
  | .a => 9
  | .gt => 10
  | .ge => 11
  | .nz => 12
  | .nv => 13
  | .nc => 14
  | .np => 15

/-- The conditional branch with this condition and a 16-bit immediate (45 R426). -/
def jcc16 (cc : Cond) (rel : Bool) (weight : BitVec 4) (imm : BitVec 16) : Instr :=
  match cc with
  | .p => .jp16 rel weight imm
  | .c => .jc16 rel weight imm
  | .v => .jv16 rel weight imm
  | .z => .jz16 rel weight imm
  | .lt => .jlt16 rel weight imm
  | .le => .jle16 rel weight imm
  | .be => .jbe16 rel weight imm
  | .mi => .jmi16 rel weight imm
  | .pl => .jpl16 rel weight imm
  | .a => .ja16 rel weight imm
  | .gt => .jgt16 rel weight imm
  | .ge => .jge16 rel weight imm
  | .nz => .jnz16 rel weight imm
  | .nv => .jnv16 rel weight imm
  | .nc => .jnc16 rel weight imm
  | .np => .jnp16 rel weight imm

/-- The conditional branch with this condition and a 32-bit immediate (45 R426). -/
def jcc32 (cc : Cond) (rel : Bool) (weight : BitVec 4) (imm : BitVec 32) : Instr :=
  match cc with
  | .p => .jp32 rel weight imm
  | .c => .jc32 rel weight imm
  | .v => .jv32 rel weight imm
  | .z => .jz32 rel weight imm
  | .lt => .jlt32 rel weight imm
  | .le => .jle32 rel weight imm
  | .be => .jbe32 rel weight imm
  | .mi => .jmi32 rel weight imm
  | .pl => .jpl32 rel weight imm
  | .a => .ja32 rel weight imm
  | .gt => .jgt32 rel weight imm
  | .ge => .jge32 rel weight imm
  | .nz => .jnz32 rel weight imm
  | .nv => .jnv32 rel weight imm
  | .nc => .jnc32 rel weight imm
  | .np => .jnp32 rel weight imm

/-- The conditional branch with this condition and a 64-bit immediate (45 R426). -/
def jcc64 (cc : Cond) (rel : Bool) (weight : BitVec 4) (imm : BitVec 64) : Instr :=
  match cc with
  | .p => .jp64 rel weight imm
  | .c => .jc64 rel weight imm
  | .v => .jv64 rel weight imm
  | .z => .jz64 rel weight imm
  | .lt => .jlt64 rel weight imm
  | .le => .jle64 rel weight imm
  | .be => .jbe64 rel weight imm
  | .mi => .jmi64 rel weight imm
  | .pl => .jpl64 rel weight imm
  | .a => .ja64 rel weight imm
  | .gt => .jgt64 rel weight imm
  | .ge => .jge64 rel weight imm
  | .nz => .jnz64 rel weight imm
  | .nv => .jnv64 rel weight imm
  | .nc => .jnc64 rel weight imm
  | .np => .jnp64 rel weight imm

/-- The 2-bit size control of a long immediate, `log2(size)-1` (30 R189, 45 R420). -/
def Imm.sizeBits : Imm → BitVec 2
  | .i16 _ => 0
  | .i32 _ => 1
  | .i64 _ => 2

/-- The number of bytes of an immediate (30 R183). -/
def Imm.bytes : Imm → Nat
  | .i16 _ => 2
  | .i32 _ => 4
  | .i64 _ => 8

/-- The bytes of an immediate, little-endian (20 R101). -/
def Imm.encode : Imm → List Byte
  | .i16 v => bytesLE 2 v.toNat
  | .i32 v => bytesLE 4 v.toNat
  | .i64 v => bytesLE 8 v.toNat

/-- Bit `b` of a pattern as a 1-bit field. -/
def bit1 (b : Bool) : BitVec 1 := if b then 1 else 0

/-! ### Length (30 R183) -/

/-- Bytes of the immediate after an operand control structure: `2 << ss` for form `11`, none otherwise; the 16 bytes of
the reserved `ss` = 3 are not fetched (30 R183, R189). -/
def immBytesOf (c : BitVec 16) : Nat :=
  if c.extractLsb' 14 2 = 3#2 then
    (if c.extractLsb' 8 2 = 0#2 then 2 else if c.extractLsb' 8 2 = 1#2 then 4 else if c.extractLsb' 8 2 = 2#2 then 8 else 0)
  else 0

/-- Is this control structure a 16-byte immediate, after which nothing more is fetched (30 R189)? -/
def isReservedImm (c : BitVec 16) : Bool := c.extractLsb' 14 2 == 3#2 && c.extractLsb' 8 2 == 3#2

/-- What follows an opcode word (30 R182, R220). -/
inductive Tail where
  /-- operand control structures -/
  | operands (n : Nat)
  /-- a branch immediate, or a prefix's follower, of `n` bytes -/
  | raw (n : Nat)
deriving DecidableEq, Repr

/-- What follows the opcode word of a branch (45 R420). -/
def branchTail (op : BitVec 12) (h : BitVec 4) : Tail :=
  if op.extractLsb' 5 1 = 1#1 then .raw 0
  else if op.extractLsb' 6 2 = 0#2 then .raw 2
  else if op.extractLsb' 6 2 = 1#2 then .raw 4
  else if op.extractLsb' 6 2 = 2#2 then .raw 8
  else
    match (op.extractLsb' 0 4).toNat with
    | 0 | 1 | 2 | 11 | 12 =>
      if h.extractLsb' 0 2 = 0#2 then .raw 2
      else if h.extractLsb' 0 2 = 1#2 then .raw 4
      else if h.extractLsb' 0 2 = 2#2 then .raw 8
      else .raw 0
    | _ => .raw 0

/-- What follows the opcode word of opcodes 0x000..0x0ff (30 R220). -/
def lowTail (op : Nat) : Tail :=
  match op with
  | 0x01 | 0x02 | 0x03 | 0x04 | 0x05 | 0x08 | 0x09 | 0x12 | 0x20 | 0x21 => .operands 2
  | 0x0a | 0x0b | 0x0c | 0x11 | 0x14 | 0x15 | 0x18 | 0x19 | 0x1a | 0x1b => .operands 1
  | 0x13 => .operands 3
  | 0x28 | 0x29 => .raw 2
  | 0x30 | 0x31 | 0x32 | 0x33 | 0x34 | 0x35 | 0x36 | 0x6c | 0x6d => .operands 2
  | 0x38 | 0x39 | 0x3a | 0x3b | 0x3c | 0x3d | 0x3e => .operands 1
  | 0x41 | 0x42 | 0x43 | 0x44 | 0x45 | 0x46 | 0x47 => .operands 1
  | 0x49 | 0x4a | 0x4b | 0x4c | 0x4d | 0x6e | 0x6f => .operands 1
  | _ => .operands 0

/-- What follows the opcode word `op`, `h`; nothing after an unassigned opcode (30 R221). -/
def tailOf (op : BitVec 12) (h : BitVec 4) : Tail :=
  match (op.extractLsb' 8 4).toNat with
  | 0 => lowTail (op.extractLsb' 0 8).toNat
  | 2 =>
    match (op.extractLsb' 0 8).toNat with
    | 0 => .operands 2
    | 1 | 2 => .operands 3
    | _ => .operands 0
  | 7 => branchTail op h
  | 8 =>
    match (op.extractLsb' 0 8).toNat with
    | 4 | 5 | 8 | 9 => .operands 1
    | _ => .operands 0
  | _ => .operands 0

/-- The bytes `n` operands take, as far as the bytes at hand tell: at least one control structure more where they end. -/
def operandBytes : Nat → List Byte → Nat
  | 0, _ => 0
  | n + 1, b0 :: b1 :: rest =>
    let c := b0 ++ b1
    if isReservedImm c then 2 else 2 + immBytesOf c + operandBytes n (rest.drop (immBytesOf c))
  | _ + 1, _ => 2

/-- The opcode of an opcode word (30 R180). -/
def opcodeOf (b0 b1 : Byte) : BitVec 12 := b0 ++ b1.extractLsb' 4 4

/-- The `h` field of an opcode word (30 R180). -/
def hOf (b1 : Byte) : BitVec 4 := b1.extractLsb' 0 4

/-- How many bytes the instruction that starts with these bytes has, as far as they tell: fetch goes on while fewer are at
hand (30 R183, R226). -/
def neededBytes : List Byte → Nat
  | b0 :: b1 :: rest =>
    match tailOf (opcodeOf b0 b1) (hOf b1) with
    | .operands n => 2 + operandBytes n rest
    | .raw n => 2 + n
  | _ => 2

/-! ### Decoder -/

/-! Each part of the decoder answers a term and the bytes after it, or the reason there is none. -/

/-- What decoding bytes answers: the instruction at their head and the bytes after it, or the reason there is none. -/
abbrev DecodeResult := Except DecodeError (Instr × List Byte)

/-- An immediate whose size control is `ss` (30 R189). -/
def decodeImm (ss : BitVec 2) (bs : List Byte) : Except DecodeError (Imm × List Byte) :=
  if ss = 0 then
    match bs with
    | b0 :: b1 :: rest => .ok (.i16 (BitVec.ofNat 16 (valueLE [b0, b1])), rest)
    | _ => .error .truncated
  else if ss = 1 then
    match bs with
    | b0 :: b1 :: b2 :: b3 :: rest => .ok (.i32 (BitVec.ofNat 32 (valueLE [b0, b1, b2, b3])), rest)
    | _ => .error .truncated
  else if ss = 2 then
    match bs with
    | b0 :: b1 :: b2 :: b3 :: b4 :: b5 :: b6 :: b7 :: rest =>
      .ok (.i64 (BitVec.ofNat 64 (valueLE [b0, b1, b2, b3, b4, b5, b6, b7])), rest)
    | _ => .error .truncated
  else .error .reservedImmediate

/-- Register operand `[00 yyyy ss rrrrrrrr]` (30 R186). -/
def decodeReg (c : BitVec 16) (rest : List Byte) : Except DecodeError (Operand × List Byte) :=
  if c.extractLsb' 10 4 = 0#4 then .ok (.reg (.ofBits (c.extractLsb' 8 2)) (c.extractLsb' 0 8), rest)
  else .error .malformedOperand

/-- Indirect register operand `[01 oooo lll k ss rrrr]` (30 R187). -/
def decodeInd (c : BitVec 16) (rest : List Byte) : Except DecodeError (Operand × List Byte) :=
  let o := c.extractLsb' 10 4
  let index := if c.getLsbD 6 then Index.num o else Index.gpr o
  .ok (.ind index (c.extractLsb' 7 3) (.ofBits (c.extractLsb' 4 2)) (c.extractLsb' 0 4), rest)

/-- Short immediate `[10 y r iiiiiiiiiiii]` (30 R188). -/
def decodeShort (c : BitVec 16) (rest : List Byte) : Except DecodeError (Operand × List Byte) :=
  if c.getLsbD 13 then .error .malformedOperand
  else .ok (.short (c.getLsbD 12) (c.extractLsb' 0 12), rest)

/-- Long immediate and memory reference `[11 m yy r ss yy zz yyyy]` (30 R189). -/
def decodeLong (c : BitVec 16) (rest : List Byte) : Except DecodeError (Operand × List Byte) :=
  if c.extractLsb' 11 2 = 0#2 ∧ c.extractLsb' 6 2 = 0#2 ∧ c.extractLsb' 0 4 = 0#4 then
    if c.getLsbD 13 then do
      let (imm, rest) ← decodeImm (c.extractLsb' 8 2) rest
      .ok (.mref (c.getLsbD 10) imm (.ofBits (c.extractLsb' 4 2)), rest)
    else if c.extractLsb' 4 2 = 0#2 then do
      let (imm, rest) ← decodeImm (c.extractLsb' 8 2) rest
      .ok (.long (c.getLsbD 10) imm, rest)
    else .error .malformedOperand
  else .error .malformedOperand

/-- One operand: the form is in the two most significant bits (30 R185). -/
def decodeOperand : List Byte → Except DecodeError (Operand × List Byte)
  | b0 :: b1 :: rest =>
    let c := b0 ++ b1
    if c.extractLsb' 14 2 = 0#2 then decodeReg c rest
    else if c.extractLsb' 14 2 = 1#2 then decodeInd c rest
    else if c.extractLsb' 14 2 = 2#2 then decodeShort c rest
    else decodeLong c rest
  | _ => .error .truncated

/-- An instruction without operands. -/
def decode0 (i : Instr) (bs : List Byte) : DecodeResult := .ok (i, bs)

/-- An instruction with one operand. -/
def decode1 (k : Operand → Instr) (bs : List Byte) : DecodeResult := do
  let (a, bs) ← decodeOperand bs
  .ok (k a, bs)

/-- An instruction with two operands, the first first (30 R182). -/
def decode2 (k : Operand → Operand → Instr) (bs : List Byte) : DecodeResult := do
  let (a, bs) ← decodeOperand bs
  let (b, bs) ← decodeOperand bs
  .ok (k a b, bs)

/-- An instruction with three operands. -/
def decode3 (k : Operand → Operand → Operand → Instr) (bs : List Byte) : DecodeResult := do
  let (a, bs) ← decodeOperand bs
  let (b, bs) ← decodeOperand bs
  let (c, bs) ← decodeOperand bs
  .ok (k a b c, bs)

/-- `h` must be 0 (30 R181). -/
def withH0 (h : BitVec 4) (k : DecodeResult) : DecodeResult :=
  if h = 0 then k else .error .reservedH

/-- `h = [l 0 0 f]` (40 R241). -/
def withLF (h : BitVec 4) (k : Bool → Bool → DecodeResult) : DecodeResult :=
  if h.extractLsb' 1 2 = 0#2 then k (h.getLsbD 3) (h.getLsbD 0) else .error .reservedH

/-- `h = [0 0 0 f]` (41 R314). -/
def withF (h : BitVec 4) (k : Bool → DecodeResult) : DecodeResult :=
  if h.extractLsb' 1 3 = 0#3 then k (h.getLsbD 0) else .error .reservedH

/-- `h = [s s 0 f]` (40 R250). -/
def withSF (h : BitVec 4) (k : Size → Bool → DecodeResult) : DecodeResult :=
  if h.getLsbD 1 then .error .reservedH else k (.ofBits (h.extractLsb' 2 2)) (h.getLsbD 0)

/-- `h = [0 0 s s]` (42 R330). -/
def withSS (h : BitVec 4) (k : Size → DecodeResult) : DecodeResult :=
  if h.extractLsb' 2 2 = 0#2 then k (.ofBits (h.extractLsb' 0 2)) else .error .reservedH

/-- The follower of a repeat prefix: any 16-bit word, the legal ones by name (42 R331). -/
def decodeFollower (op : BitVec 12) (h : BitVec 4) : Follower :=
  if h.extractLsb' 2 2 = 0#2 then
    match op.toNat with
    | 0x02a => .bcpy (.ofBits (h.extractLsb' 0 2))
    | 0x02b => .bsto (.ofBits (h.extractLsb' 0 2))
    | 0x02c => .bsca (.ofBits (h.extractLsb' 0 2))
    | 0x02d => .bcmp (.ofBits (h.extractLsb' 0 2))
    | 0x02e => .btst (.ofBits (h.extractLsb' 0 2))
    | 0x806 => .inp (.ofBits (h.extractLsb' 0 2))
    | 0x807 => .outp (.ofBits (h.extractLsb' 0 2))
    | _ => .invalid (op ++ h)
  else .invalid (op ++ h)

/-- A repeat prefix with its follower (42 R331). -/
def decodeRep (k : Follower → Instr) : List Byte → DecodeResult
  | b0 :: b1 :: rest => .ok (k (decodeFollower (opcodeOf b0 b1) (hOf b1)), rest)
  | _ => .error .truncated

/-- Opcodes 0x000..0x0ff (30 R220). -/
def decodeLow (op : Nat) (h : BitVec 4) (bs : List Byte) : DecodeResult :=
  match op with
  | 0x00 => decode0 (.und000 h) bs
  | 0x01 => withLF h fun l f => decode2 (.add l f) bs
  | 0x02 => withLF h fun l f => decode2 (.sub l f) bs
  | 0x03 => withLF h fun l f => decode2 (.and l f) bs
  | 0x04 => withLF h fun l f => decode2 (.or l f) bs
  | 0x05 => withLF h fun l f => decode2 (.xor l f) bs
  | 0x06 => withSF h fun ss f => decode0 (.mul ss f) bs
  | 0x07 => decode0 (.div (.ofBits (h.extractLsb' 2 2)) (h.getLsbD 1) (h.getLsbD 0)) bs
  | 0x08 => withH0 h (decode2 .mov bs)
  | 0x09 => withH0 h (decode2 .lea bs)
  | 0x0a => decode1 (.movrToGpr h) bs
  | 0x0b => decode1 (.movrFromGpr h) bs
  | 0x0c => decode1 (.lear h) bs
  | 0x10 => withH0 h (decode0 .nop0 bs)
  | 0x11 => withH0 h (decode1 .nop1 bs)
  | 0x12 => withH0 h (decode2 .nop2 bs)
  | 0x13 => withH0 h (decode3 .nop3 bs)
  | 0x14 => withH0 h (decode1 .push bs)
  | 0x15 => withH0 h (decode1 .pop bs)
  | 0x16 => decode0 (.pushr h) bs
  | 0x17 => decode0 (.popr h) bs
  | 0x18 => withH0 h (decode1 .stogpr bs)
  | 0x19 => withH0 h (decode1 .stoar bs)
  | 0x1a => withH0 h (decode1 .rstogpr bs)
  | 0x1b => withH0 h (decode1 .rstoar bs)
  | 0x1c => withH0 h (decode0 .pushgpr bs)
  | 0x1d => withH0 h (decode0 .pushar bs)
  | 0x1e => withH0 h (decode0 .popgpr bs)
  | 0x1f => withH0 h (decode0 .popar bs)
  | 0x20 => withF h fun f => decode2 (.movsx f) bs
  | 0x21 => withF h fun f => decode2 (.bswap f) bs
  | 0x28 => decodeRep (.repbi (.ofCode h)) bs
  | 0x29 => decodeRep (.repbc (.ofCode h)) bs
  | 0x2a => withSS h fun ss => decode0 (.bcpy ss) bs
  | 0x2b => withSS h fun ss => decode0 (.bsto ss) bs
  | 0x2c => withSS h fun ss => decode0 (.bsca ss) bs
  | 0x2d => withSS h fun ss => decode0 (.bcmp ss) bs
  | 0x2e => withSS h fun ss => decode0 (.btst ss) bs
  | 0x30 => withLF h fun l f => decode2 (.lsh l f) bs
  | 0x31 => withLF h fun l f => decode2 (.rsh l f) bs
  | 0x32 => withLF h fun l f => decode2 (.arsh l f) bs
  | 0x33 => withLF h fun l f => decode2 (.lshc l f) bs
  | 0x34 => withLF h fun l f => decode2 (.rshc l f) bs
  | 0x35 => withLF h fun l f => decode2 (.lrot l f) bs
  | 0x36 => withLF h fun l f => decode2 (.rrot l f) bs
  | 0x38 => decode1 (.lshr h) bs
  | 0x39 => decode1 (.rshr h) bs
  | 0x3a => decode1 (.arshr h) bs
  | 0x3b => decode1 (.lshcr h) bs
  | 0x3c => decode1 (.rshcr h) bs
  | 0x3d => decode1 (.lrotr h) bs
  | 0x3e => decode1 (.rrotr h) bs
  | 0x40 => withSF h fun ss f => decode0 (.imul ss f) bs
  | 0x41 => decode1 (.addrGprDst h) bs
  | 0x42 => decode1 (.subrGprDst h) bs
  | 0x43 => decode1 (.andrGprDst h) bs
  | 0x44 => decode1 (.orrGprDst h) bs
  | 0x45 => decode1 (.xorrGprDst h) bs
  | 0x46 => withLF h fun l f => decode1 (.bnot l f) bs
  | 0x47 => withLF h fun l f => decode1 (.neg l f) bs
  | 0x48 => decode0 (.idiv (.ofBits (h.extractLsb' 2 2)) (h.getLsbD 1) (h.getLsbD 0)) bs
  | 0x49 => decode1 (.addrGprSrc h) bs
  | 0x4a => decode1 (.subrGprSrc h) bs
  | 0x4b => decode1 (.andrGprSrc h) bs
  | 0x4c => decode1 (.orrGprSrc h) bs
  | 0x4d => decode1 (.xorrGprSrc h) bs
  | 0x4e => decode0 (.bnotr h) bs
  | 0x4f => decode0 (.negr h) bs
  | 0x6c => withH0 h (decode2 .cmp bs)
  | 0x6d => withH0 h (decode2 .test bs)
  | 0x6e => decode1 (.cmpr h) bs
  | 0x6f => decode1 (.testr h) bs
  | _ => .error .unassignedOpcode

/-- Opcodes 0x200..0x2ff (44 R401). -/
def decodeAtomic (op : Nat) (h : BitVec 4) (bs : List Byte) : DecodeResult :=
  match op with
  | 0x00 => withH0 h (decode2 .xchg bs)
  | 0x01 => withH0 h (decode3 .cmpxchg bs)
  | 0x02 => withH0 h (decode3 .wcmpxchg bs)
  | 0x03 => withH0 h (decode0 .fence bs)
  | _ => .error .unassignedOpcode

/-- A conditional branch: `ss` is the size control of its immediate, not 3 (45 R426). -/
def decodeCond (ss : BitVec 2) (cc : Cond) (rel : Bool) (weight : BitVec 4) (bs : List Byte) : DecodeResult := do
  match ← decodeImm ss bs with
  | (.i16 v, rest) => .ok (jcc16 cc rel weight v, rest)
  | (.i32 v, rest) => .ok (jcc32 cc rel weight v, rest)
  | (.i64 v, rest) => .ok (jcc64 cc rel weight v, rest)

/-- A branch immediate with `h = [0 0 s s]` (45 R429). -/
def decodeBranchImm (h : BitVec 4) (k : Imm → Instr) (bs : List Byte) : DecodeResult :=
  if h.extractLsb' 2 2 = 0#2 then do
    let (imm, rest) ← decodeImm (h.extractLsb' 0 2) bs
    .ok (k imm, rest)
  else .error .reservedH

/-- `callsm`: `h = [v 0 s s]` (45 R441). -/
def decodeCallsm (h : BitVec 4) (rel : Bool) (bs : List Byte) : DecodeResult :=
  if h.getLsbD 2 then .error .reservedH
  else do
    let (imm, rest) ← decodeImm (h.extractLsb' 0 2) bs
    .ok (.callsm rel (h.getLsbD 3) imm, rest)

/-- `ijmp`, and its two named forms (45 R436, R437). -/
def ijmpForm (rel : Bool) (h : BitVec 4) : Instr :=
  if h = 14#4 then .fret rel else if h = 15#4 then .ifjmp rel else .ijmp rel h

/-- An opcode whose `r` bit may not be set (45 R429, 30 R221). -/
def notRel (rel : Bool) (k : DecodeResult) : DecodeResult :=
  if rel then .error .unassignedOpcode else k

/-- Unconditional branches: `rel` is the bit `r`, `oooo` the branch opcode (45 R429). -/
def decodeUncond (rel : Bool) (oooo : Nat) (h : BitVec 4) (bs : List Byte) : DecodeResult :=
  match oooo with
  | 0x0 => decodeBranchImm h (.jmp rel) bs
  | 0x1 => decodeBranchImm h (.call rel) bs
  | 0x2 => decodeBranchImm h (.fcall rel) bs
  | 0x3 => notRel rel (withH0 h (decode0 .ret bs))
  | 0x4 => notRel rel (withH0 h (decode0 .scall bs))
  | 0x5 => notRel rel (decode0 (.intr h) bs)
  | 0x8 => decode0 (ijmpForm rel h) bs
  | 0x9 => decode0 (.icall rel h) bs
  | 0xa => withH0 h (decode0 (.ifcall rel) bs)
  | 0xb => decodeBranchImm h (.jsm rel) bs
  | 0xc => decodeCallsm h rel bs
  | 0xd => notRel rel (withH0 h (decode0 .retrsm bs))
  | _ => .error .unassignedOpcode

/-- Opcodes 0x700..0x7ff: `[0111 ss0r cccc wwww]` and `[0111 110r oooo hhhh]` (45 R420). -/
def decodeBranch (op : BitVec 12) (h : BitVec 4) (bs : List Byte) : DecodeResult :=
  if op.getLsbD 5 then .error .unassignedOpcode
  else if op.extractLsb' 6 2 = 3#2 then decodeUncond (op.getLsbD 4) (op.extractLsb' 0 4).toNat h bs
  else decodeCond (op.extractLsb' 6 2) (.ofCode (op.extractLsb' 0 4)) (op.getLsbD 4) h bs

/-- Opcodes 0x800..0x8ff (46 R470). -/
def decodeSystem (op : Nat) (h : BitVec 4) (bs : List Byte) : DecodeResult :=
  match op with
  | 0x01 => withH0 h (decode0 .halt bs)
  | 0x02 => withH0 h (decode0 .pcfl bs)
  | 0x03 => withH0 h (decode0 .flall bs)
  | 0x04 => withH0 h (decode1 .dflush bs)
  | 0x05 => withH0 h (decode1 .iflush bs)
  | 0x06 => withSS h fun ss => decode0 (.inp ss) bs
  | 0x07 => withSS h fun ss => decode0 (.outp ss) bs
  | 0x08 => withH0 h (decode1 .storegf bs)
  | 0x09 => withH0 h (decode1 .rstregf bs)
  | _ => .error .unassignedOpcode

/-- Opcodes 0xf00..0xfff: supervisor branches, machine-specific opcodes and 0xfff (46 R471, R472, R475, 40 R240). -/
def decodeTop (op : BitVec 12) (h : BitVec 4) (bs : List Byte) : DecodeResult :=
  if op = 0xfc6#12 then withH0 h (decode0 .scret bs)
  else if op = 0xfc7#12 then withH0 h (decode0 .reti bs)
  else if op = 0xfff#12 then decode0 (.undFff h) bs
  else if op.extractLsb' 5 7 = 0x7f#7 then decode0 (.machineSpecific (op.extractLsb' 0 5) h) bs
  else .error .unassignedOpcode

/-- The instruction with this opcode word, its operands taken from the bytes (30 R220). -/
def decodeWord (op : BitVec 12) (h : BitVec 4) (bs : List Byte) : DecodeResult :=
  match (op.extractLsb' 8 4).toNat with
  | 0x0 => decodeLow (op.extractLsb' 0 8).toNat h bs
  | 0x2 => decodeAtomic (op.extractLsb' 0 8).toNat h bs
  | 0x7 => decodeBranch op h bs
  | 0x8 => decodeSystem (op.extractLsb' 0 8).toNat h bs
  | 0xf => decodeTop op h bs
  | _ => .error .unassignedOpcode

/-- The instruction at the head of these bytes and the bytes after it (30 R182). -/
def decode : List Byte → DecodeResult
  | b0 :: b1 :: rest => decodeWord (opcodeOf b0 b1) (hOf b1) rest
  | _ => .error .truncated

/-- The host's word: 16-bit word k is bits 16k+15..16k of `w`, each stored big-endian, the first at the lowest address; 16 words, the
longest instruction (30 R183). -/
def tableBytes (nbits w : Nat) : List Byte :=
  (List.range 16).flatMap fun k => bytesBE16 (BitVec.ofNat 16 ((w % 2 ^ nbits) >>> (16 * k)))

/-- The instruction the decoder reads from the bits `w` of a row of `nbits` bits. -/
def decodeTableWord (nbits w : Nat) : Option Instr :=
  match decode (tableBytes nbits w) with
  | .ok (i, _) => some i
  | .error _ => none

/-! ### Encoder -/

/-- The two bytes of an opcode word (30 R180). -/
def opcodeWord (op : BitVec 12) (h : BitVec 4) : List Byte :=
  [op.extractLsb' 4 8, op.extractLsb' 0 4 ++ h]

/-- An operand control structure with its immediate (30 R186 to R189). -/
def Operand.encode : Operand → List Byte
  | .reg sz r => bytesBE16 (0#2 ++ 0#4 ++ sz.toBits ++ r)
  | .ind (.num o) scale sz base => bytesBE16 (1#2 ++ o ++ scale ++ 1#1 ++ sz.toBits ++ base)
  | .ind (.gpr o) scale sz base => bytesBE16 (1#2 ++ o ++ scale ++ 0#1 ++ sz.toBits ++ base)
  | .short rel imm => bytesBE16 (2#2 ++ 0#1 ++ bit1 rel ++ imm)
  | .long rel imm => bytesBE16 (3#2 ++ 0#1 ++ 0#2 ++ bit1 rel ++ imm.sizeBits ++ 0#2 ++ 0#2 ++ 0#4) ++ imm.encode
  | .mref rel imm sz => bytesBE16 (3#2 ++ 1#1 ++ 0#2 ++ bit1 rel ++ imm.sizeBits ++ 0#2 ++ sz.toBits ++ 0#4) ++ imm.encode

/-- `[l 0 0 f]` (40 R241). -/
def hLF (l f : Bool) : BitVec 4 := bit1 l ++ 0#2 ++ bit1 f

/-- `[s s w f]` (40 R250). -/
def hSWF (ss : Size) (w f : Bool) : BitVec 4 := ss.toBits ++ bit1 w ++ bit1 f

/-- `[0 0 s s]` (42 R330). -/
def hSS (ss : Size) : BitVec 4 := 0#2 ++ ss.toBits

/-- The word of a follower (42 R331). -/
def Follower.encode : Follower → List Byte
  | .bcpy ss => opcodeWord 0x02a (hSS ss)
  | .bsto ss => opcodeWord 0x02b (hSS ss)
  | .bsca ss => opcodeWord 0x02c (hSS ss)
  | .bcmp ss => opcodeWord 0x02d (hSS ss)
  | .btst ss => opcodeWord 0x02e (hSS ss)
  | .inp ss => opcodeWord 0x806 (hSS ss)
  | .outp ss => opcodeWord 0x807 (hSS ss)
  | .invalid w => bytesBE16 w

/-- A conditional branch `[0111 ss0r cccc wwww]` with its immediate (45 R426). -/
def encodeCond (cc : Cond) (rel : Bool) (weight : BitVec 4) (imm : Imm) : List Byte :=
  opcodeWord (7#4 ++ imm.sizeBits ++ 0#1 ++ bit1 rel ++ cc.code) weight ++ imm.encode

/-- An unconditional branch `[0111 110r oooo hhhh]` (45 R420). -/
def encodeUncond (rel : Bool) (oooo h : BitVec 4) : List Byte :=
  opcodeWord (7#4 ++ 3#2 ++ 0#1 ++ bit1 rel ++ oooo) h

/-- An unconditional branch with an immediate (45 R429). -/
def encodeUncondImm (rel : Bool) (oooo : BitVec 4) (v : Bool) (imm : Imm) : List Byte :=
  encodeUncond rel oooo (bit1 v ++ 0#1 ++ imm.sizeBits) ++ imm.encode

/-- The bytes of an instruction, in memory order (30 R182). -/
def encode : Instr → List Byte
  | .und000 h => opcodeWord 0x000 h
  | .undFff h => opcodeWord 0xfff h
  | .add l f a b => opcodeWord 0x001 (hLF l f) ++ a.encode ++ b.encode
  | .sub l f a b => opcodeWord 0x002 (hLF l f) ++ a.encode ++ b.encode
  | .and l f a b => opcodeWord 0x003 (hLF l f) ++ a.encode ++ b.encode
  | .or l f a b => opcodeWord 0x004 (hLF l f) ++ a.encode ++ b.encode
  | .xor l f a b => opcodeWord 0x005 (hLF l f) ++ a.encode ++ b.encode
  | .mul ss f => opcodeWord 0x006 (hSWF ss false f)
  | .div ss w f => opcodeWord 0x007 (hSWF ss w f)
  | .imul ss f => opcodeWord 0x040 (hSWF ss false f)
  | .idiv ss w f => opcodeWord 0x048 (hSWF ss w f)
  | .mov a b => opcodeWord 0x008 0 ++ a.encode ++ b.encode
  | .lea a b => opcodeWord 0x009 0 ++ a.encode ++ b.encode
  | .movrToGpr r a => opcodeWord 0x00a r ++ a.encode
  | .movrFromGpr r a => opcodeWord 0x00b r ++ a.encode
  | .lear r a => opcodeWord 0x00c r ++ a.encode
  | .nop0 => opcodeWord 0x010 0
  | .nop1 a => opcodeWord 0x011 0 ++ a.encode
  | .nop2 a b => opcodeWord 0x012 0 ++ a.encode ++ b.encode
  | .nop3 a b c => opcodeWord 0x013 0 ++ a.encode ++ b.encode ++ c.encode
  | .push a => opcodeWord 0x014 0 ++ a.encode
  | .pop a => opcodeWord 0x015 0 ++ a.encode
  | .pushr r => opcodeWord 0x016 r
  | .popr r => opcodeWord 0x017 r
  | .stogpr a => opcodeWord 0x018 0 ++ a.encode
  | .stoar a => opcodeWord 0x019 0 ++ a.encode
  | .rstogpr a => opcodeWord 0x01a 0 ++ a.encode
  | .rstoar a => opcodeWord 0x01b 0 ++ a.encode
  | .pushgpr => opcodeWord 0x01c 0
  | .pushar => opcodeWord 0x01d 0
  | .popgpr => opcodeWord 0x01e 0
  | .popar => opcodeWord 0x01f 0
  | .movsx f a b => opcodeWord 0x020 (hLF false f) ++ a.encode ++ b.encode
  | .bswap f a b => opcodeWord 0x021 (hLF false f) ++ a.encode ++ b.encode
  | .repbi cc fo => opcodeWord 0x028 cc.code ++ fo.encode
  | .repbc cc fo => opcodeWord 0x029 cc.code ++ fo.encode
  | .bcpy ss => opcodeWord 0x02a (hSS ss)
  | .bsto ss => opcodeWord 0x02b (hSS ss)
  | .bsca ss => opcodeWord 0x02c (hSS ss)
  | .bcmp ss => opcodeWord 0x02d (hSS ss)
  | .btst ss => opcodeWord 0x02e (hSS ss)
  | .lsh l f a b => opcodeWord 0x030 (hLF l f) ++ a.encode ++ b.encode
  | .rsh l f a b => opcodeWord 0x031 (hLF l f) ++ a.encode ++ b.encode
  | .arsh l f a b => opcodeWord 0x032 (hLF l f) ++ a.encode ++ b.encode
  | .lshc l f a b => opcodeWord 0x033 (hLF l f) ++ a.encode ++ b.encode
  | .rshc l f a b => opcodeWord 0x034 (hLF l f) ++ a.encode ++ b.encode
  | .lrot l f a b => opcodeWord 0x035 (hLF l f) ++ a.encode ++ b.encode
  | .rrot l f a b => opcodeWord 0x036 (hLF l f) ++ a.encode ++ b.encode
  | .lshr r a => opcodeWord 0x038 r ++ a.encode
  | .rshr r a => opcodeWord 0x039 r ++ a.encode
  | .arshr r a => opcodeWord 0x03a r ++ a.encode
  | .lshcr r a => opcodeWord 0x03b r ++ a.encode
  | .rshcr r a => opcodeWord 0x03c r ++ a.encode
  | .lrotr r a => opcodeWord 0x03d r ++ a.encode
  | .rrotr r a => opcodeWord 0x03e r ++ a.encode
  | .addrGprDst r a => opcodeWord 0x041 r ++ a.encode
  | .subrGprDst r a => opcodeWord 0x042 r ++ a.encode
  | .andrGprDst r a => opcodeWord 0x043 r ++ a.encode
  | .orrGprDst r a => opcodeWord 0x044 r ++ a.encode
  | .xorrGprDst r a => opcodeWord 0x045 r ++ a.encode
  | .bnot l f a => opcodeWord 0x046 (hLF l f) ++ a.encode
  | .neg l f a => opcodeWord 0x047 (hLF l f) ++ a.encode
  | .addrGprSrc r a => opcodeWord 0x049 r ++ a.encode
  | .subrGprSrc r a => opcodeWord 0x04a r ++ a.encode
  | .andrGprSrc r a => opcodeWord 0x04b r ++ a.encode
  | .orrGprSrc r a => opcodeWord 0x04c r ++ a.encode
  | .xorrGprSrc r a => opcodeWord 0x04d r ++ a.encode
  | .bnotr r => opcodeWord 0x04e r
  | .negr r => opcodeWord 0x04f r
  | .cmp a b => opcodeWord 0x06c 0 ++ a.encode ++ b.encode
  | .test a b => opcodeWord 0x06d 0 ++ a.encode ++ b.encode
  | .cmpr r a => opcodeWord 0x06e r ++ a.encode
  | .testr r a => opcodeWord 0x06f r ++ a.encode
  | .xchg a b => opcodeWord 0x200 0 ++ a.encode ++ b.encode
  | .cmpxchg a b c => opcodeWord 0x201 0 ++ a.encode ++ b.encode ++ c.encode
  | .wcmpxchg a b c => opcodeWord 0x202 0 ++ a.encode ++ b.encode ++ c.encode
  | .fence => opcodeWord 0x203 0
  | .jp16 rel weight imm => encodeCond .p rel weight (.i16 imm)
  | .jc16 rel weight imm => encodeCond .c rel weight (.i16 imm)
  | .jv16 rel weight imm => encodeCond .v rel weight (.i16 imm)
  | .jz16 rel weight imm => encodeCond .z rel weight (.i16 imm)
  | .jlt16 rel weight imm => encodeCond .lt rel weight (.i16 imm)
  | .jle16 rel weight imm => encodeCond .le rel weight (.i16 imm)
  | .jbe16 rel weight imm => encodeCond .be rel weight (.i16 imm)
  | .jmi16 rel weight imm => encodeCond .mi rel weight (.i16 imm)
  | .jpl16 rel weight imm => encodeCond .pl rel weight (.i16 imm)
  | .ja16 rel weight imm => encodeCond .a rel weight (.i16 imm)
  | .jgt16 rel weight imm => encodeCond .gt rel weight (.i16 imm)
  | .jge16 rel weight imm => encodeCond .ge rel weight (.i16 imm)
  | .jnz16 rel weight imm => encodeCond .nz rel weight (.i16 imm)
  | .jnv16 rel weight imm => encodeCond .nv rel weight (.i16 imm)
  | .jnc16 rel weight imm => encodeCond .nc rel weight (.i16 imm)
  | .jnp16 rel weight imm => encodeCond .np rel weight (.i16 imm)
  | .jp32 rel weight imm => encodeCond .p rel weight (.i32 imm)
  | .jc32 rel weight imm => encodeCond .c rel weight (.i32 imm)
  | .jv32 rel weight imm => encodeCond .v rel weight (.i32 imm)
  | .jz32 rel weight imm => encodeCond .z rel weight (.i32 imm)
  | .jlt32 rel weight imm => encodeCond .lt rel weight (.i32 imm)
  | .jle32 rel weight imm => encodeCond .le rel weight (.i32 imm)
  | .jbe32 rel weight imm => encodeCond .be rel weight (.i32 imm)
  | .jmi32 rel weight imm => encodeCond .mi rel weight (.i32 imm)
  | .jpl32 rel weight imm => encodeCond .pl rel weight (.i32 imm)
  | .ja32 rel weight imm => encodeCond .a rel weight (.i32 imm)
  | .jgt32 rel weight imm => encodeCond .gt rel weight (.i32 imm)
  | .jge32 rel weight imm => encodeCond .ge rel weight (.i32 imm)
  | .jnz32 rel weight imm => encodeCond .nz rel weight (.i32 imm)
  | .jnv32 rel weight imm => encodeCond .nv rel weight (.i32 imm)
  | .jnc32 rel weight imm => encodeCond .nc rel weight (.i32 imm)
  | .jnp32 rel weight imm => encodeCond .np rel weight (.i32 imm)
  | .jp64 rel weight imm => encodeCond .p rel weight (.i64 imm)
  | .jc64 rel weight imm => encodeCond .c rel weight (.i64 imm)
  | .jv64 rel weight imm => encodeCond .v rel weight (.i64 imm)
  | .jz64 rel weight imm => encodeCond .z rel weight (.i64 imm)
  | .jlt64 rel weight imm => encodeCond .lt rel weight (.i64 imm)
  | .jle64 rel weight imm => encodeCond .le rel weight (.i64 imm)
  | .jbe64 rel weight imm => encodeCond .be rel weight (.i64 imm)
  | .jmi64 rel weight imm => encodeCond .mi rel weight (.i64 imm)
  | .jpl64 rel weight imm => encodeCond .pl rel weight (.i64 imm)
  | .ja64 rel weight imm => encodeCond .a rel weight (.i64 imm)
  | .jgt64 rel weight imm => encodeCond .gt rel weight (.i64 imm)
  | .jge64 rel weight imm => encodeCond .ge rel weight (.i64 imm)
  | .jnz64 rel weight imm => encodeCond .nz rel weight (.i64 imm)
  | .jnv64 rel weight imm => encodeCond .nv rel weight (.i64 imm)
  | .jnc64 rel weight imm => encodeCond .nc rel weight (.i64 imm)
  | .jnp64 rel weight imm => encodeCond .np rel weight (.i64 imm)
  | .jmp rel imm => encodeUncondImm rel 0x0 false imm
  | .call rel imm => encodeUncondImm rel 0x1 false imm
  | .fcall rel imm => encodeUncondImm rel 0x2 false imm
  | .ret => encodeUncond false 0x3 0
  | .scall => encodeUncond false 0x4 0
  | .intr i => encodeUncond false 0x5 i
  | .ijmp rel r => encodeUncond rel 0x8 r
  | .fret rel => encodeUncond rel 0x8 0xe
  | .ifjmp rel => encodeUncond rel 0x8 0xf
  | .icall rel r => encodeUncond rel 0x9 r
  | .ifcall rel => encodeUncond rel 0xa 0
  | .jsm rel imm => encodeUncondImm rel 0xb false imm
  | .callsm rel v imm => encodeUncondImm rel 0xc v imm
  | .retrsm => encodeUncond false 0xd 0
  | .scret => opcodeWord 0xfc6 0
  | .reti => opcodeWord 0xfc7 0
  | .machineSpecific lo h => opcodeWord (0x7f#7 ++ lo) h
  | .halt => opcodeWord 0x801 0
  | .pcfl => opcodeWord 0x802 0
  | .flall => opcodeWord 0x803 0
  | .dflush a => opcodeWord 0x804 0 ++ a.encode
  | .iflush a => opcodeWord 0x805 0 ++ a.encode
  | .inp ss => opcodeWord 0x806 (hSS ss)
  | .outp ss => opcodeWord 0x807 (hSS ss)
  | .storegf a => opcodeWord 0x808 0 ++ a.encode
  | .rstregf a => opcodeWord 0x809 0 ++ a.encode

end Sys2Proof
end

