-- ==== Sys2Proof/Config.lean ====
section
/-!
DEFINITION. What an implementation fixes (the parameters of 00 R6, plain data that State carries and no step changes) and the
free values: opaque constants, applied to the counter State holds, for every value the spec leaves open.
-/

namespace Sys2Proof

/-- What `int` does while `cr0.IE = 0` (00 R6, 60 R551). -/
inductive IntWhenDisabled where
  | ignored
  | prot
deriving DecidableEq, Repr

/-- What a `repbc` unit does when r1 = 0 on entry (00 R6, 42 R333). -/
inductive RepbcZeroEntry where
  | onceAndWrap
  | skip
deriving DecidableEq, Repr

/-- Registers 148..154 (00 R6, 10 R68): refused by a model without machine documentation, plain 64-bit storage, or what the machine
makes of them, `Config.msrRead`, `Config.msrWrite` and `Config.msrEffect` (log 15). -/
inductive MsrBehaviour where
  | refuse
  | storage
  | machine
deriving DecidableEq, Repr

/-- A range of addresses. -/
structure Region where
  base : Nat
  size : Nat
deriving DecidableEq, Repr

/-- What `MachInstr` says of a machine-specific opcode that the machine provides (00 R6, 46 R475): its low five bits, and how many 2-byte
units of operands follow the opcode word. DESIGN CHOICE (log 23): at most 15 units, so that it is at most as long as the longest
instruction that the spec defines, 32 bytes (30 R183); the spec gives a machine-specific opcode no largest length. Its effect is
`Config.machineEffect`. -/
structure MachineOpcode where
  lo : BitVec 5
  units : Fin 16
deriving DecidableEq, Repr

/-- The implementation parameters of 00 R6. DESIGN CHOICE (log 2): the machine's values stand in State, so that a statement over
all states is a statement over all implementations. -/
structure Params where
  /-- `cpuex2.PAS`: physical addresses have 32 + 4*PAS bits (10 R64). -/
  pas : BitVec 3
  /-- `cpuex2.VAS`: the largest legal `cr0.PTL`, 0..4 (10 R64). -/
  vas : Fin 5
  /-- The bits of `cpuex2` other than 0, 4:2 and 7:5 (10 R62). -/
  cpuex2Other : Word
  /-- Register 136 (10 R63). -/
  cpuidlo : Word
  /-- Register 137 (10 R63). -/
  cpuidhi : Word
  /-- Register 143 (10 R65). -/
  mscpuex : Word
  /-- NCPU - 1: there is always a CPU 0 (60 R565). -/
  otherCpus : Nat
  /-- Physical addresses above 0xffff with neither memory nor device behind them (20 R133). -/
  absent : List Region
  intWhenDisabled : IntWhenDisabled
  repbcZeroEntry : RepbcZeroEntry
  msrBehaviour : MsrBehaviour
  /-- The values of registers 148..154 after initialisation, part of `MsrBehaviour` (00 R6, 10 R68). -/
  msrReset : Vector Word 7
  /-- The machine-specific opcodes that the machine provides, with their lengths: `MachInstr` (46 R475). -/
  machInstr : List MachineOpcode
  /-- The device addresses from 2^32 on that have a device, part of `IoDevice` (00 R6, 46 R493). -/
  ioDevices : List Region
deriving DecidableEq, Repr

/-- The defaults of 92_eei_decisions.md section 5, with `ignored`, `once-and-wrap` and `refuse` for the three open behaviours.
DESIGN CHOICE, unsafe where a claim rests on one of the values (log 2). -/
def Params.default : Params where
  pas := 0
  vas := 4
  cpuex2Other := 0
  cpuidlo := 0
  cpuidhi := 0
  mscpuex := 0
  otherCpus := 0
  absent := []
  intWhenDisabled := .ignored
  repbcZeroEntry := .onceAndWrap
  msrBehaviour := .refuse
  msrReset := Vector.replicate 7 0
  machInstr := []
  ioDevices := []

/-! The free values (log 4). The first argument is State.freeCtr, but for otherCpuInfo. -/

/-- C where a rule writes "any value" (10 R50, 40 R250). -/
opaque Config.freeC : Nat → Bool

/-- V where a rule writes "any value" (10 R50, 40 R250, 43 R351). -/
opaque Config.freeV : Nat → Bool

/-- `fcode` after UND, DIV, NMI (60 R531) and after the PF of a bad `page` register (46 R485). -/
opaque Config.freeFcode : Nat → Word

/-- What a read of msr`i` answers under `MsrBehaviour.machine`, from what the seven registers hold (10 R68). -/
opaque Config.msrRead : Nat → Fin 7 → Vector Word 7 → Word

/-- What the seven registers hold after a write of msr`i` under `MsrBehaviour.machine` (10 R68). -/
opaque Config.msrWrite : Nat → Fin 7 → Word → Vector Word 7 → Vector Word 7

/-- The ip slot of a frame pushed for ABRT (60 R511). -/
opaque Config.abortIp : Nat → Word

/-- The flags slot of a frame pushed for ABRT (60 R511). -/
opaque Config.abortFlags : Nat → Word

/-- The sp slot of a frame pushed for ABRT (60 R511). -/
opaque Config.abortSp : Nat → Word

/-- The `plevel` of a fault whose level is unspecified (46 R485). -/
opaque Config.freeLevel : Nat → Byte

/-- The `access_kind` of a fault whose kind is unspecified (46 R484, R485). -/
opaque Config.freeKind : Nat → Byte

/-- Does this `wcmpxchg` fail spuriously (44 R404)? -/
opaque Config.spuriousFail : Nat → Bool

/-- Does the fetch of the 2-byte unit at this physical address use the old contents (20 R121)? -/
opaque Config.fetchOld : Nat → Nat → Bool

/-- Does a page walk use the old contents of the entry at this physical address (20 R126)? -/
opaque Config.walkOld : Nat → Nat → Bool

/-- After a change of `cr0.PTL`, does a walk for this virtual page use the old PTL (70 R587)? -/
opaque Config.ptlOld : Nat → Nat → Bool

/-- The answer of the device at an address the spec gives no answer for (46 R493, 60 R569, 92 D33). -/
opaque Config.deviceAnswer : Nat → Word → Word

/-- The machine-specific part of cpuinfo slot k (0..7) of another CPU, whose number comes first (60 R570, 10 R63 to R65). -/
opaque Config.otherCpuInfo : Nat → Nat → Word

end Sys2Proof
end

