-- ==== Sys2Proof/Machine/State.lean ====
section
/-!
DEFINITION. The state of the machine: every register and every piece of indirect state the spec names (10_state.md), physical memory, the
CPU-enable devices, the implementation parameters and the free-value counter; the reset state; the reasons a step can stop; exceptions,
and what a machine-specific instruction or register access does, as data.
-/

namespace Sys2Proof.Machine

/-- Physical memory as (address, byte) pairs, in the canonical form that Memory.wf states. -/
abbrev Memory := List Host.Cell

structure State where
  /-- r0..r15 (10 R31). -/
  gpr : Vector Word 16
  /-- Register 16 (10 R32): the address of the instruction being fetched. -/
  ip : Word
  /-- Register 17 (10 R33). -/
  flags : Word
  /-- Register 18 (10 R35). -/
  mode : Word
  /-- Register 128 (10 R55). -/
  cr0 : Word
  /-- Register 129, cr1 (10 R56). -/
  page : Word
  /-- Register 130, cr2 (10 R57). -/
  flprotect : Word
  /-- Register 131, cr3 (10 R58). -/
  scdp : Word
  /-- Register 132, cr4 (10 R59). -/
  scsp : Word
  /-- Register 133, cr5 (10 R60). -/
  sccr : Word
  /-- Register 134, cr6 (10 R61). -/
  itabp : Word
  /-- Register 135, cr7 (10 R62). -/
  ciread : Word
  /-- Register 144 (10 R66). -/
  fcode : Word
  /-- Register 145 (10 R67). -/
  pfcharp : Word
  /-- Registers 148..154, msr0..msr6 (10 R68). -/
  msr : Vector Word 7
  /-- The halted flag (10 R75 c). -/
  halted : Bool
  /-- A pending NMI (60 R550). -/
  nmi : Bool
  /-- Pending interrupt requests: bit i is vector 32 + i (60 R550). -/
  irq : BitVec 32
  /-- Physical memory (10 R76). -/
  mem : Memory
  /-- What a fetch may still see: memory as of the last instruction-stream synchronisation (10 R75 a, 20 R121). -/
  imem : Memory
  /-- What a page walk may still see: memory as of the last page-cache flush (10 R75 b, 20 R126). -/
  wmem : Memory
  /-- What a page walk may still see: `cr0.PTL` as of the last page-cache flush (10 R75 b, 70 R587). -/
  wptl : BitVec 3
  /-- The model's own: `cr0` at the last taken branch (20 R151, log 18). -/
  brCr0 : Word
  /-- The model's own: `page` at the last taken branch (20 R151, log 18). -/
  brPage : Word
  /-- The model's own: memory at the last taken branch (20 R151, log 18). -/
  brMem : Memory
  /-- Register Load Pointers, device 0xff00 + n (60 R567). -/
  rlp : Vector Word 128
  /-- CPU Enable Control Words, device 0xff80 + n (60 R568); the word of CPU 0 is not kept here, see ioRead. -/
  cecw : Vector Word 128
  /-- The implementation parameters (00 R6), which no step changes. -/
  cfg : Params
  /-- The model's own: the counter that the free values are applied to (log 4). -/
  freeCtr : Nat
deriving DecidableEq, Repr

/-- Why the machine stops with a fault: behaviour that the spec calls undefined or not defined, and for which it gives no effect. Every
one is safe: hardware may do anything there, the model claims nothing. -/
inductive Fault where
  /-- A fetch whose address no longer maps to the physical page it mapped to at the last taken branch, or a step that maps its own page
  elsewhere (20 R151, 46 R500, 93 U9). Raised by the fetch, by `rstregf`, and at the end of a step by `checkMapping`.
  Safe. -/
  | mappingChanged
  /-- `out` to the Register Load Pointer or Control Word of an active CPU, or to the Register Load Pointer of an enabled one
  (60 R567, R568, 93 U5), or a cpuinfo query of an active CPU (60 R570). Raised by `out`. Safe. -/
  | activeCpuDevice
  /-- `out` of an invalid CPU Enable Control Word (60 R568, 93 U6). Raised by `out`. Safe. -/
  | invalidControlWord
  /-- `out` of an out-of-range physical address to a Register Load Pointer (60 R567, 93 U8). Raised by `out`. Safe. -/
  | loadPointerOutOfRange
  /-- `out` to device 0xfe80, which is "not defined" (60 R566). Raised by `out`. Safe. -/
  | cpuCountWrite
deriving DecidableEq, Repr

/-- Why the model gives an instruction no meaning. Every one is safe. -/
inductive Refusal where
  /-- An instruction without a meaning yet: only the dispatch answers it. Safe. -/
  | notModelled (mnemonic : String)
  /-- A machine-specific register named by an operand while `MsrBehaviour` is `refuse` (10 R68). Safe. -/
  | machineRegister (n : Nat)
  /-- `out` that enables or wakes another CPU: the hand-shake is not in the source (60 R568, 91 N8). Safe. -/
  | cpuEnable
  /-- `out` of a Control Word with machine-specific bits (60 R568, 93 U12e). Safe. -/
  | machineControlBits
  /-- `out` to a per-CPU device with a size other than its 8 bytes, which is device-defined (92 D33). Safe. -/
  | deviceAccessSize
deriving DecidableEq, Repr

/-- The memory that holds these bytes from an address on and is 0 elsewhere. -/
def bootMemory : Nat → List Byte → Memory
  | _, [] => []
  | a, b :: bs => if b = 0 then bootMemory (a + 1) bs else (a, b) :: bootMemory (a + 1) bs

/-- The machine with these parameters and this boot image right after initialisation (10 R85, 70 R580, R584): the image fills at most
0x0000..0xffff, all other memory is 0. Where the spec gives no value the field is 0 (log 1). -/
def State.initial (p : Params) (boot : List Byte) : State where
  gpr := Vector.replicate 16 0
  ip := 0xff00
  flags := 0
  mode := 0
  cr0 := 0
  page := 0
  flprotect := 0
  scdp := 0
  scsp := 0
  sccr := 0
  itabp := 0
  ciread := 0
  fcode := 0
  pfcharp := 0
  msr := p.msrReset
  halted := false
  nmi := false
  irq := 0
  mem := bootMemory 0 (boot.take 0x10000)
  imem := bootMemory 0 (boot.take 0x10000)
  wmem := bootMemory 0 (boot.take 0x10000)
  wptl := 0
  brCr0 := 0
  brPage := 0
  brMem := bootMemory 0 (boot.take 0x10000)
  rlp := Vector.replicate 128 0
  cecw := Vector.replicate 128 0
  cfg := p
  freeCtr := 0

/-- The machine right after reset: the default parameters (log 2), and no boot image (log 3). -/
def State.reset : State := State.initial Params.default []

/-! ### Exceptions, and what a machine-specific instruction or register access does, as data -/

/-- What a page fault reports (20 R152): the value for `fcode` and the fields of the fault information. -/
structure PageFaultInfo where
  fcode : Word
  pref : Word
  plevel : Byte
  kind : Byte
  status : BitVec 16
deriving DecidableEq, Repr

/-- The synchronous exceptions an instruction raises (60 R512 to R517). -/
inductive Exc where
  | und
  | prot
  | pf (info : PageFaultInfo)
  | xa (target : Word)
  | div
deriving DecidableEq, Repr, Inhabited

/-- What a machine-specific instruction does (46 R475, log 23), or an access to machine-specific registers besides (10 R68, log 15), as
data: the value for the writable bits of `flags`, registers written through an operand's checks, bytes stored at physical addresses, a
flush of the caches, a halt, and the target where it branches. -/
structure MachineEffect where
  flags : Word
  registers : List (BitVec 8 × Word)
  stores : List (Word × Byte)
  flushes : Bool
  halts : Bool
  target : Option Word
deriving DecidableEq, Repr

end Sys2Proof.Machine

/-- The effect of the machine-specific opcode with low bits `lo` and the given `h` in a state, or the exception it raises: the parameter
`MachInstr` (00 R6, 46 R475, log 23). -/
opaque Sys2Proof.Config.machineEffect :
  BitVec 5 → BitVec 4 → Sys2Proof.Machine.State → Except Sys2Proof.Machine.Exc Sys2Proof.Machine.MachineEffect

/-- What an access to machine-specific registers does besides, under `MsrBehaviour.machine`, from the state before the instruction and the
one it would leave; or the exception that the instruction raises instead (10 R68, log 15). -/
opaque Sys2Proof.Config.msrEffect : Sys2Proof.Machine.State → Sys2Proof.Machine.State →
  Except Sys2Proof.Machine.Exc Sys2Proof.Machine.MachineEffect
end

