-- ==== Sys2Proof/Machine/Flags.lean ====
section
/-!
DEFINITION. Values of less than 64 bits inside a Word, the bits of the flags and mode registers, the flag computations of
10 R45 to R50, the condition codes of 45 R425, and the explicit writes of flags and mode (10 R34, R37).
-/

namespace Sys2Proof.Machine

/-! ### Values of D bits (00 R12) -/

/-- The low `d` bits of a value, zero-extended to 64 bits. -/
def trunc (d : Nat) (v : Word) : Word := (v.setWidth d).setWidth 64

/-- The low `d` bits of a value, sign-extended to 64 bits. -/
def sext (d : Nat) (v : Word) : Word := (v.setWidth d).signExtend 64

/-- The most significant of `d` bits. -/
def msb (d : Nat) (v : Word) : Bool := v.getLsbD (d - 1)

/-- The number of 1 bits (00 R12). -/
def popcount (v : Word) : Nat := (List.range 64).countP fun i => v.getLsbD i

/-- `v` with bit `i` set to `b`. -/
def setBit (v : Word) (i : Nat) (b : Bool) : Word :=
  if b then v ||| (1#64 <<< i) else v &&& ~~~(1#64 <<< i)

/-! ### The flags register (10 R33) -/

/-- flags.C, bit 0. -/
def flagC (f : Word) : Bool := f.getLsbD 0

/-- flags.Z, bit 1. -/
def flagZ (f : Word) : Bool := f.getLsbD 1

/-- flags.V, bit 2. -/
def flagV (f : Word) : Bool := f.getLsbD 2

/-- flags.N, bit 3. -/
def flagN (f : Word) : Bool := f.getLsbD 3

/-- flags.P, bit 4. -/
def flagP (f : Word) : Bool := f.getLsbD 4

/-- Write C and V, nothing else. -/
def setCV (f : Word) (c v : Bool) : Word := setBit (setBit f 0 c) 2 v

/-- Write Z and N from the `d`-bit result `r`, nothing else (10 R46). -/
def setZN (f r : Word) (d : Nat) : Word := setBit (setBit f 1 (r == 0)) 3 (msb d r)

/-- Write Z, N and P from the `d`-bit result `r`, nothing else (10 R46). -/
def setZNP (f r : Word) (d : Nat) : Word := setBit (setZN f r d) 4 (popcount r % 2 == 1)

/-- The operations of the ALU instructions (40 R243 to R247). -/
inductive AluOp where
  | add
  | sub
  | and
  | or
  | xor
deriving DecidableEq, Repr

/-- The result before truncation to the destination (40 R242); the low bits of the 64-bit operation are those of the W-bit one. -/
def AluOp.apply : AluOp → Word → Word → Word
  | .add, a, b => a + b
  | .sub, a, b => a - b
  | .and, a, b => a &&& b
  | .or, a, b => a ||| b
  | .xor, a, b => a ^^^ b

/-- C of a `d`-bit operation (10 R47, R48, R49): carry, borrow, or cleared. -/
def AluOp.carry (op : AluOp) (d : Nat) (a b : Word) : Bool :=
  match op with
  | .add => decide (2 ^ d ≤ a.toNat + b.toNat)
  | .sub => decide (a.toNat < b.toNat)
  | .and | .or | .xor => false

/-- V of a `d`-bit operation with result `r` (10 R47, R48, R49). -/
def AluOp.overflow (op : AluOp) (d : Nat) (a b r : Word) : Bool :=
  match op with
  | .add => (msb d a == msb d b) && (msb d r != msb d a)
  | .sub => (msb d a != msb d b) && (msb d r != msb d a)
  | .and | .or | .xor => false

/-- The flags after a `d`-bit operation on sources that fit `d` bits: C, V, Z, N (40 R242). -/
def aluFlags (op : AluOp) (f : Word) (d : Nat) (a b r : Word) : Word :=
  setZN (setCV f (op.carry d a b) (op.overflow d a b r)) r d

/-- The flags when a source may exceed the destination size: then C and V are free values (10 R50, 40 R242). -/
def aluFlagsWide (op : AluOp) (f : Word) (d : Nat) (a b r : Word) (ctr : Nat) : Word :=
  if b.toNat < 2 ^ d then aluFlags op f d a b r
  else setZN (setCV f (Config.freeC ctr) (Config.freeV ctr)) r d

/-- The flags of a comparison of `d`-bit values: those of a subtraction (43 R380). -/
def compareFlags (f : Word) (d : Nat) (a b : Word) : Word := aluFlags .sub f d a b (trunc d (a - b))

/-- Is the condition satisfied by these flags (45 R425)? -/
def condHolds (cc : Cond) (f : Word) : Bool :=
  match cc with
  | .p => flagP f
  | .c => flagC f
  | .v => flagV f
  | .z => flagZ f
  | .lt => flagN f != flagV f
  | .le => (flagN f != flagV f) || flagZ f
  | .be => flagC f || flagZ f
  | .mi => flagN f
  | .pl => !flagN f
  | .a => !flagC f && !flagZ f
  | .gt => (flagN f == flagV f) && !flagZ f
  | .ge => flagN f == flagV f
  | .nz => !flagZ f
  | .nv => !flagV f
  | .nc => !flagC f
  | .np => !flagP f

/-! ### Mode bits (10 R35) and explicit writes -/

/-- mode.XM of a mode value: program execution mode. -/
def modeXM (m : Word) : Bool := m.getLsbD 32

/-- mode.XMM of a mode value. -/
def modeXMM (m : Word) : Bool := m.getLsbD 33

/-- Is the machine in program execution mode (00 R18)? -/
def State.xm (s : State) : Bool := modeXM s.mode

/-- A mode value with XM and XMM cleared: supervisor mode (60 R533). -/
def supervisorMode (m : Word) : Word := setBit (setBit m 32 false) 33 false

/-- The bits of `flags` that an explicit write keeps: 63..5, and in program mode those of `flprotect` (10 R34). -/
def keptFlags (s : State) : Word :=
  (~~~0x1f#64) ||| (if s.xm then s.flprotect else 0)

/-- The value of `flags` after `WriteFlags(v)` (10 R34). -/
def writtenFlags (s : State) (v : Word) : Word :=
  (s.flags &&& keptFlags s) ||| (v &&& ~~~(keptFlags s))

/-- Is `WriteMode(v)` accepted? In supervisor mode XM and XMM of the value must agree (10 R37). -/
def modeAccepted (s : State) (v : Word) : Bool := s.xm || (modeXM v == modeXMM v)

/-- The value of `mode` after `WriteMode(v)` by an instruction: program mode keeps bits 63..32 (10 R37). -/
def writtenMode (s : State) (v : Word) : Word :=
  if s.xm then (s.mode &&& ~~~0xffffffff#64) ||| (v &&& 0xffffffff#64) else v

end Sys2Proof.Machine
end

