-- ==== Sys2Proof/Machine/Ops.lean ====
section
/-!
DEFINITION. The shared operations: physical memory, exceptions as data, address translation, register access, branches, taking an
exception or interrupt (60 R533) and the return from one (46 R472).
-/

namespace Sys2Proof.Machine

/-! ### Physical memory -/

/-- What an address reads as that the list does not hold: 0 (10 R85, "all other memory 0"; for 0..0xffff see log 3). -/
def Memory.unlisted : Byte := 0

/-- The byte at a physical address. -/
def Memory.read : Memory → Nat → Byte
  | [], _ => Memory.unlisted
  | (a, b) :: m, k => if k = a then b else Memory.read m k

/-- Insert a cell in front of the first cell with a greater address. -/
def Memory.insert : Memory → Nat → Byte → Memory
  | [], k, v => [(k, v)]
  | (a, b) :: m, k, v => if k < a then (k, v) :: (a, b) :: m else (a, b) :: Memory.insert m k v

/-- Store a byte, keeping the canonical form: the value an unlisted address reads as is not listed. -/
def Memory.write (m : Memory) (k : Nat) (v : Byte) : Memory :=
  let rest := m.filter fun c => c.1 != k
  if v = Memory.unlisted then rest else Memory.insert rest k v

/-- The canonical form: addresses strictly rising, and no cell that an unlisted address would read as. -/
abbrev Memory.wf (m : Memory) : Prop :=
  m.Pairwise (fun x y => x.1 < y.1) ∧ ∀ c ∈ m, c.2 ≠ Memory.unlisted

/-- The bytes at these physical addresses. -/
def Memory.readBytes (m : Memory) (ps : List Nat) : List Byte := ps.map m.read

/-- Store bytes at physical addresses, in order. -/
def Memory.writeBytes : Memory → List Nat → List Byte → Memory
  | m, p :: ps, b :: bs => Memory.writeBytes (m.write p b) ps bs
  | m, _, _ => m

/-- The little-endian value at these physical addresses (20 R100). -/
def Memory.readValue (m : Memory) (ps : List Nat) : Word := BitVec.ofNat 64 (valueLE (m.readBytes ps))

/-! ### Exceptions as data (00 R15) -/

/-- Why an instruction is abandoned: an exception the architecture defines, or a stop of the model. -/
inductive Trap where
  | exc (e : Exc)
  | stop (f : Fault)
  | refuse (r : Refusal)
deriving DecidableEq, Repr

/-- Continue if `b`, else abandon the instruction. -/
def require (b : Bool) (t : Trap) : Except Trap Unit := if b then .ok () else .error t

/-! ### Address translation (20 R130 to R152) -/

/-- The kind of an access (00 R14). -/
inductive Access where
  | read
  | write
  | fetch
deriving DecidableEq, Repr

/-- The `access_kind` byte of an access (20 R152). -/
def Access.code : Access → Byte
  | .read => 0
  | .write => 1
  | .fetch => 2

/-- cr0.PG (10 R55). -/
def pagingOn (cr0 : Word) : Bool := cr0.getLsbD 0

/-- cr0.IE (10 R55). -/
def interruptsOn (cr0 : Word) : Bool := cr0.getLsbD 1

/-- The PTL field of a `cr0` value (10 R55). -/
def ptlBits (cr0 : Word) : BitVec 3 := cr0.extractLsb' 3 3

/-- cr0.PTL as a number (10 R55). -/
def ptlOf (cr0 : Word) : Nat := (ptlBits cr0).toNat

/-- `PhysInRange` (20 R131). -/
def physInRange (cfg : Params) (a : Word) : Bool := decide (a.toNat < 2 ^ (32 + 4 * cfg.pas.toNat))

/-- Is there memory behind this physical address (20 R133)? The first 64 KiB always are present. -/
def present (cfg : Params) (a : Word) : Bool :=
  decide (a.toNat < 0x10000) ||
    !(cfg.absent.any fun r => decide (r.base ≤ a.toNat) && decide (a.toNat < r.base + r.size))

/-- The width B of virtual addresses (20 R132). -/
def virtWidth (ptl : Nat) : Nat :=
  match ptl with
  | 0 => 32
  | 1 => 36
  | 2 => 48
  | 3 => 56
  | _ => 64

/-- `VirtInRange` (20 R132). -/
def virtInRange (ptl : Nat) (va : Word) : Bool := sext (virtWidth ptl) va == va

/-- The number of the highest level (20 R141). -/
def topLevel (ptl : Nat) : Nat :=
  match ptl with
  | 0 => 3
  | 1 => 3
  | 2 => 4
  | 3 => 5
  | _ => 6

/-- The index into the level-`k` table: `va[9k+11 : 9k+3]`, cut off at the virtual address width (20 R141). -/
def levelIndex (ptl k : Nat) (va : Word) : Nat :=
  va.toNat / 2 ^ (9 * k + 3) % 2 ^ (min 9 (virtWidth ptl - (9 * k + 3)))

/-- The bits XM and XMM of a fault's status (20 R152). -/
def statusXM (xm : Bool) : BitVec 16 := if xm then 0x0003 else 0x0000

/-- A page fault at `va` as data (20 R152); `flags` are the status flags besides XM and XMM. -/
def pageFault (xm : Bool) (va pref : Word) (plevel : Nat) (kind : Byte) (flags : BitVec 16) : Trap :=
  .exc (.pf { fcode := va, pref := pref, plevel := BitVec.ofNat 8 plevel, kind := kind, status := statusXM xm ||| flags })

/-- The physical byte address `a`, checked (20 R150, `cr0.PG = 0`). -/
def translatePhysical (s : State) (xm : Bool) (kind : Access) (a : Word) : Except Trap Nat := do
  require (physInRange s.cfg a) (pageFault xm a 0 0 kind.code 0x0600)
  require (present s.cfg a) (pageFault xm a 0 0 0xff 0x0400)
  .ok a.toNat

/-- The 8 physical byte addresses from `a` on. -/
def eightBytes (a : Word) : List Nat := (List.range 8).map fun i => a.toNat + i

/-- A page-table entry as a walk sees it: the current memory, or, where they differ, possibly what the page caches hold (20 R126). -/
def walkEntry (s : State) (a : Word) : Word :=
  let new := s.mem.readValue (eightBytes a)
  let old := s.wmem.readValue (eightBytes a)
  if new = old then new else if Config.walkOld s.freeCtr a.toNat then old else new

/-- The address part of a page-table entry (20 R142). -/
def entryAddress (e : Word) : Word := e &&& ~~~0xfff#64

/-- PERM of an entry (20 R142). -/
def entryPerm (e : Word) : Nat := (e.extractLsb' 0 2).toNat

/-- XM of an entry (20 R142). -/
def entryXM (e : Word) : Bool := e.getLsbD 2

/-- SXP of an entry (20 R142). -/
def entrySXP (e : Word) : Bool := e.getLsbD 4

/-- Is an entry valid as far as its flag bits go: reserved bits 9:5 zero, XMM the same as XM (20 R142)? -/
def entryValid (e : Word) : Bool := e.extractLsb' 5 5 == 0#5 && e.getLsbD 2 == e.getLsbD 3

/-- The PTL a walk for `va` goes by: the current one, or, where `cr0.PTL` has changed since the last flush of the page caches and `va` had
a translation before, possibly the old one (70 R587); the choice is one for the whole page (20 R150). -/
def walkPtl (s : State) (va : Word) : Nat :=
  let new := ptlOf s.cr0
  let old := s.wptl.toNat
  if new = old then new
  else if virtInRange old va && Config.ptlOld s.freeCtr (va.toNat / 4096) then old else new

/-- The entry of the level-`k` table at `table` that `va` selects, checked as 20 R147 says; all its bytes must be in memory (20 R133).
DESIGN CHOICE (log 7): an address out of the physical range is reported as both flags that the spec names for it. -/
def walkStep (s : State) (xm : Bool) (kind : Access) (va table : Word) (ptl k : Nat) : Except Trap Word := do
  let a := table + BitVec.ofNat 64 (8 * levelIndex ptl k va)
  let nested : BitVec 16 := if k > 1 then 0x1000 else 0
  require (physInRange s.cfg (a + 7)) (pageFault xm va 0 0 kind.code 0x0300)
  require ((List.range 8).all fun i => present s.cfg (a + BitVec.ofNat 64 i)) (pageFault xm va 0 0 0xff 0)
  let e := walkEntry s a
  require (entryValid e) (pageFault xm va e (k - 1) kind.code (0x0100 ||| nested))
  require (decide (k ≤ 1) || decide (entryPerm e < 2)) (pageFault xm va e (k - 1) kind.code (0x0100 ||| nested))
  require (entryPerm e != 0) (pageFault xm va e (k - 1) kind.code nested)
  .ok e

/-- What a walk finds: the level-1 entry and the OR of XM and of SXP along the way (20 R145). -/
structure Leaf where
  entry : Word
  xm : Bool
  sxp : Bool
deriving DecidableEq, Repr

/-- The walk from the level-`k` table down to level 1 (20 R147). -/
def walk (s : State) (xm : Bool) (kind : Access) (va : Word) (ptl : Nat) : Nat → Word → Bool → Bool → Except Trap Leaf
  | 0, _, accXM, accSXP => .ok { entry := 0, xm := accXM, sxp := accSXP }
  | k + 1, table, accXM, accSXP => do
    let e ← walkStep s xm kind va table ptl (k + 1)
    if k = 0 then .ok { entry := e, xm := accXM || entryXM e, sxp := accSXP || entrySXP e }
    else walk s xm kind va ptl k (entryAddress e) (accXM || entryXM e) (accSXP || entrySXP e)

/-- The access rights of 20 R148 on the page a walk found, in mode `xm`. DESIGN CHOICE (log 34): a refusal of a right sets no status flag
of its own but PREVENTED where SXP refuses. -/
def leafCheck (xm : Bool) (kind : Access) (va : Word) (l : Leaf) : Except Trap Unit := do
  require (!xm || l.xm) (pageFault xm va l.entry 0 kind.code 0)
  require (kind != .write || entryPerm l.entry == 2) (pageFault xm va l.entry 0 kind.code 0)
  require (kind != .fetch || entryPerm l.entry == 3) (pageFault xm va l.entry 0 kind.code 0)
  require (kind != .fetch || xm || !l.sxp) (pageFault xm va l.entry 0 kind.code 0x0800)

/-- `Translate` (20 R147, `cr0.PG = 1`). DESIGN CHOICE: a bad `page` register is reported without NESTED (log 35), a page out of the
physical range with its entry as `pref` (log 7), absent memory with no status flag (log 34). -/
def translateVirtual (s : State) (xm : Bool) (kind : Access) (va : Word) : Except Trap Nat := do
  require (virtInRange (ptlOf s.cr0) va) (pageFault xm va 0 0 kind.code 0x0200)
  require (s.page.extractLsb' 0 12 == 0#12) (pageFault xm va s.page (topLevel (ptlOf s.cr0)) kind.code 0x0100)
  let ptl := walkPtl s va
  let l ← walk s xm kind va ptl (topLevel ptl) (entryAddress s.page) false false
  leafCheck xm kind va l
  let pa := entryAddress l.entry ||| (va &&& 0xfff#64)
  require (physInRange s.cfg pa) (pageFault xm va l.entry 0 kind.code 0x0300)
  require (present s.cfg pa) (pageFault xm va 0 0 0xff 0)
  .ok pa.toNat

/-- The physical address of one byte of an access made in mode `xm`, or its page fault (20 R150). -/
def translate (s : State) (xm : Bool) (kind : Access) (va : Word) : Except Trap Nat :=
  if pagingOn s.cr0 then translateVirtual s xm kind va else translatePhysical s xm kind va

/-- The physical addresses of the `n` bytes from `va` on, lowest first; the fault is the lowest failing byte's (20 R150). -/
def translateAll (s : State) (xm : Bool) (kind : Access) : Word → Nat → Except Trap (List Nat)
  | _, 0 => .ok []
  | va, n + 1 => do
    let p ← translate s xm kind va
    let ps ← translateAll s xm kind (va + 1) n
    .ok (p :: ps)

/-- A page fault met with supervisor rights reports the mode the machine was in (20 R152). -/
def reportMode {α : Type} (xm : Bool) : Except Trap α → Except Trap α
  | .error (.exc (.pf i)) => .error (.exc (.pf { i with status := (i.status &&& ~~~0x0003#16) ||| statusXM xm }))
  | r => r

/-- `MemRead(addr, n)` as bytes, in the current mode (20 R150). Every present physical address is plain memory (log 36). -/
def memBytes (s : State) (va : Word) (n : Nat) : Except Trap (List Byte) := do
  let ps ← translateAll s s.xm .read va n
  .ok (s.mem.readBytes ps)

/-- `MemRead(addr, n)` for n up to 8, in the current mode (20 R150). -/
def memRead (s : State) (va : Word) (n : Nat) : Except Trap Word := do
  let ps ← translateAll s s.xm .read va n
  .ok (s.mem.readValue ps)

/-! ### Registers (10 R30, R38, R39) -/

/-- The class of a register number (10 R30). -/
inductive RegClass where
  | general
  | readonly
  | flags
  | reserved
  | supervisor
  | cpuInfo
deriving DecidableEq, Repr

/-- The class of register `n` (10 R30). -/
def regClass (n : Nat) : RegClass :=
  if n < 16 then .general
  else if n = 17 then .flags
  else if n = 16 ∨ n = 18 then .readonly
  else if 136 ≤ n ∧ n ≤ 143 then .cpuInfo
  else if (128 ≤ n ∧ n ≤ 135) ∨ n = 144 ∨ n = 145 ∨ (148 ≤ n ∧ n ≤ 154) then .supervisor
  else .reserved

/-- Is register `n` one of msr0..msr6 (10 R68)? -/
def isMsr (n : Nat) : Bool := decide (148 ≤ n) && decide (n ≤ 154)

/-- What the machine says of the machine-specific opcode with these low bits, if it provides it (46 R475). -/
def machineOpcode (cfg : Params) (lo : BitVec 5) : Option MachineOpcode := cfg.machInstr.find? fun m => m.lo == lo

/-- `cpuex2` (10 R64): bit 0 is always 1. -/
def cpuex2 (cfg : Params) : Word :=
  (cfg.cpuex2Other &&& ~~~0xfd#64) ||| 1#64 ||| (cfg.pas.setWidth 64 <<< 2) ||| (BitVec.ofNat 64 cfg.vas.val <<< 5)

/-- A general register (10 R31). -/
def getGpr (s : State) (r : BitVec 4) : Word := s.gpr[r.toNat]

/-- Write a general register (10 R31). -/
def setGpr (s : State) (r : BitVec 4) (v : Word) : State := { s with gpr := s.gpr.set r.toNat v }

/-- What reading msr`i` gives (10 R68). -/
def readMsr (s : State) (k : Fin 7) : Word :=
  if s.cfg.msrBehaviour = .machine then Config.msrRead s.freeCtr k s.msr else s.msr[k.val]

/-- The machine-specific registers `m` after a write of msr`i` (10 R68). -/
def msrAfter (s : State) (m : Vector Word 7) (k : Fin 7) (v : Word) : Vector Word 7 :=
  if s.cfg.msrBehaviour = .machine then Config.msrWrite s.freeCtr k v m else m.set k.val v

/-- Write msr`i` (10 R68). -/
def putMsr (s : State) (k : Fin 7) (v : Word) : State := { s with msr := msrAfter s s.msr k v }

/-- `x[n]` (00 R13), with `ip` read as `next` (00 R16); a reserved register holds 0 (41 R300). -/
def readReg (s : State) (next : Word) (n : Nat) : Word :=
  if n < 16 then getGpr s (BitVec.ofNat 4 n)
  else
    match n with
    | 16 => next
    | 17 => s.flags
    | 18 => s.mode
    | 128 => s.cr0
    | 129 => s.page
    | 130 => s.flprotect
    | 131 => s.scdp
    | 132 => s.scsp
    | 133 => s.sccr
    | 134 => s.itabp
    | 135 => s.ciread
    | 136 => s.cfg.cpuidlo
    | 137 => s.cfg.cpuidhi
    | 138 => cpuex2 s.cfg
    | 143 => s.cfg.mscpuex
    | 144 => s.fcode
    | 145 => s.pfcharp
    | 148 => readMsr s 0
    | 149 => readMsr s 1
    | 150 => readMsr s 2
    | 151 => readMsr s 3
    | 152 => readMsr s 4
    | 153 => readMsr s 5
    | 154 => readMsr s 6
    | _ => 0

/-- Everything fetches may see is the current memory: an instruction-stream synchronisation point (20 R121). -/
def syncCode (s : State) : State := { s with imem := s.mem }

/-- Everything walks may see is the current memory: a flush of the page caches (20 R126). -/
def flushPages (s : State) : State := { s with wmem := s.mem, wptl := ptlBits s.cr0 }

/-- Write `cr0`; a change of PG flushes the page caches (20 R125). -/
def putCr0 (s : State) (v : Word) : State :=
  if pagingOn v = pagingOn s.cr0 then { s with cr0 := v } else flushPages { s with cr0 := v }

/-- `x[n] <- v` for a register that an instruction may write; other numbers keep the state (00 R13, 10 R69). -/
def putReg (s : State) (n : Nat) (v : Word) : State :=
  if n < 16 then setGpr s (BitVec.ofNat 4 n) v
  else
    match n with
    | 128 => putCr0 s v
    | 129 => flushPages { s with page := v }
    | 130 => { s with flprotect := v }
    | 131 => { s with scdp := v }
    | 132 => { s with scsp := v }
    | 133 => { s with sccr := v }
    | 134 => { s with itabp := v }
    | 135 => { s with ciread := v }
    | 144 => { s with fcode := v }
    | 145 => { s with pfcharp := v }
    | 148 => putMsr s 0 v
    | 149 => putMsr s 1 v
    | 150 => putMsr s 2 v
    | 151 => putMsr s 3 v
    | 152 => putMsr s 4 v
    | 153 => putMsr s 5 v
    | 154 => putMsr s 6 v
    | _ => s

/-- A machine-specific register is refused unless the parameter gives it a behaviour (10 R68). -/
def msrCheck (s : State) (n : Nat) : Except Trap Unit :=
  require (!isMsr n || s.cfg.msrBehaviour != .refuse) (.refuse (.machineRegister n))

/-- `RegReadCheck` (10 R39). -/
def regReadCheck (s : State) (n : Nat) : Except Trap Unit :=
  match regClass n with
  | .reserved => .error (.exc .und)
  | .supervisor => do
    require (!s.xm) (.exc .prot)
    msrCheck s n
  | .cpuInfo => require (!s.xm || s.ciread.getLsbD (n - 136)) (.exc .prot)
  | .general | .readonly | .flags => .ok ()

/-- `RegWriteCheck` (10 R39). -/
def regWriteCheck (s : State) (n : Nat) : Except Trap Unit :=
  match regClass n with
  | .reserved | .readonly | .flags | .cpuInfo => .error (.exc .und)
  | .supervisor => do
    require (!s.xm) (.exc .prot)
    msrCheck s n
  | .general => .ok ()

/-- The page fault of a bad `page` register: `fcode`, level and kind are unspecified (46 R485, 92 D41). -/
def badPageFault (s : State) : Trap :=
  .exc (.pf {
    fcode := Config.freeFcode s.freeCtr
    pref := s.page
    plevel := Config.freeLevel s.freeCtr
    kind := Config.freeKind s.freeCtr
    status := 0x0100 })

/-- The checks of `WriteCr0` (10 R55). -/
def cr0Check (s : State) (v : Word) : Except Trap Unit := do
  require (v &&& ~~~0x3b#64 == 0) (.exc .und)
  require (decide (ptlOf v ≤ s.cfg.vas.val)) (.exc .und)
  require (!(pagingOn v && !pagingOn s.cr0) || s.page.extractLsb' 0 12 == 0#12) (badPageFault s)

/-- The check of `WriteSccr` (10 R60): only bit 1 may change. -/
def sccrCheck (s : State) (v : Word) : Except Trap Unit :=
  require ((v ^^^ s.sccr) &&& ~~~2#64 == 0) (.exc .und)

/-- The checks that depend on the value written to register `n` (10 R69). -/
def regValueCheck (s : State) (n : Nat) (v : Word) : Except Trap Unit :=
  if n = 128 then cr0Check s v else if n = 133 then sccrCheck s v else .ok ()

/-- The check of `WriteMode` (10 R37). -/
def modeCheck (s : State) (v : Word) : Except Trap Unit := require (modeAccepted s v) (.exc .prot)

/-! ### Branches (45 R421, R422) -/

/-- The checks of a branch target under mode `xm`: alignment, then fetch permission with the page tables as they are in memory
(45 R421, R422). -/
def checkTarget (s : State) (xm : Bool) (t : Word) : Except Trap Unit := do
  require (!t.getLsbD 0) (.exc (.xa t))
  let _ ← translate (flushPages s) xm .fetch t
  .ok ()

/-- A taken branch: fetches and walks see memory as it is (45 R422), and the mapping of executed code is the current one (20 R151). -/
def branchTo (s : State) (t : Word) : State :=
  { s with ip := t, imem := s.mem, wmem := s.mem, wptl := ptlBits s.cr0, brCr0 := s.cr0, brPage := s.page, brMem := s.mem }

/-! ### Changing the mapping of executed code (20 R151, log 18) -/

/-- Where `va` is mapped, if anywhere, with the page tables as they are in memory and access rights left aside. -/
def mappedTo (s : State) (va : Word) : Option Nat :=
  match translate (flushPages s) false .read va with
  | .ok p => some p
  | .error _ => none

/-- Do `old` and `new` map `va` to the same physical page? -/
def sameMappingAs (old new : State) (va : Word) : Bool :=
  !(pagingOn old.cr0 || pagingOn new.cr0) || mappedTo new va == mappedTo old va

/-- `cr0` with the PTL field of another value. -/
def withPtlOf (cr0 other : Word) : Word := (cr0 &&& ~~~0x38#64) ||| (other &&& 0x38#64)

/-- Is paging on with a flag bit in `page`? Every access then faults, whatever was mapped before (20 R146). -/
def pageFlagged (s : State) : Bool := pagingOn s.cr0 && s.page.extractLsb' 0 12 != 0#12

/-- Is `va` mapped as before by PG, `page` and the tables (20 R151)? So it is where both map it alike, and also where they do so under the
PTL of each of them, since a change of PTL alone is none of these (70 R587); a flagged `page` gives every fetch its page fault (log 18). -/
def keepsMapping (old new : State) (va : Word) : Bool :=
  pageFlagged new || sameMappingAs old new va ||
    (sameMappingAs { old with cr0 := withPtlOf old.cr0 new.cr0 } new va &&
      sameMappingAs old { new with cr0 := withPtlOf new.cr0 old.cr0 } va)

/-- The address translation as it was at the last taken branch (20 R151). -/
def atBranch (s : State) : State := { s with cr0 := s.brCr0, page := s.brPage, mem := s.brMem, wmem := s.brMem }

/-- Does `t` keep `va`, which was executed in `s`, mapped as in `s` or as at the last taken branch before (20 R151)? -/
def keepsExecuted (s t : State) (va : Word) : Bool := keepsMapping s t va || keepsMapping (atBranch s) t va

/-- Does `t` keep the first and the last byte of the instruction at `s.ip`, which ends before `next`, mapped as they were (20 R151)? -/
def keepsOwnMapping (s t : State) (next : Word) : Bool := keepsExecuted s t s.ip && keepsExecuted s t (next - 1)

/-! ### Taking an exception or interrupt (60 R520 to R535) -/

/-- Reset of the CPU by an escalation (70 R581, log 17): registers as at initialisation; memory, devices and parameters as they are. -/
def resetCpu (s : State) : State :=
  { State.initial s.cfg [] with
    mem := s.mem, imem := s.mem, wmem := s.mem, brMem := s.mem, rlp := s.rlp, cecw := s.cecw, freeCtr := s.freeCtr }

/-- Why an entry could not be made (60 R521, R522, R533). -/
inductive Escalation where
  /-- `itabp` is not aligned to 32 bytes. -/
  | misaligned
  /-- The vector is outside the table. -/
  | outOfBounds
  /-- An exception occurred in servicing. -/
  | servicing
deriving DecidableEq, Repr

/-- The 8-byte value at a physical address, if all of it is in range and present (60 R532). -/
def physRead8 (s : State) (a : Word) : Except Escalation Word :=
  if (List.range 8).all fun i => physInRange s.cfg (a + BitVec.ofNat 64 i) && present s.cfg (a + BitVec.ofNat 64 i) then
    .ok (s.mem.readValue ((List.range 8).map fun i => (a + BitVec.ofNat 64 i).toNat))
  else .error .servicing

/-- An entry of the interrupt table: handler address and stack pointer; its flags are ignored (60 R520). -/
structure ItabEntry where
  ip : Word
  sp : Word
deriving DecidableEq, Repr

/-- `Entry(v)` (60 R532). -/
def itabEntry (s : State) (v : Nat) : Except Escalation ItabEntry :=
  if s.itabp.extractLsb' 0 5 = 0#5 then do
    let extent ← physRead8 s s.itabp
    if 32 * (v + 1) ≤ min extent.toNat 2048 then do
      let ip ← physRead8 s (s.itabp + BitVec.ofNat 64 (32 + 32 * v))
      let sp ← physRead8 s (s.itabp + BitVec.ofNat 64 (40 + 32 * v))
      let _ ← physRead8 s (s.itabp + BitVec.ofNat 64 (48 + 32 * v))
      .ok { ip := ip, sp := sp }
    else .error .outOfBounds
  else .error .misaligned

/-- The 32 bytes of a frame, from the new stack pointer upwards: return address, mode, flags, old stack pointer (60 R533, 45 R450). -/
def frameBytes (ip mode flags sp : Word) : List Byte :=
  bytesLE 8 ip.toNat ++ bytesLE 8 mode.toNat ++ bytesLE 8 flags.toNat ++ bytesLE 8 sp.toNat

/-- The stack a frame goes to: `new`, or the current one if `new` is 0 (60 R533, 45 R450). -/
def frameStack (s : State) (new : Word) : Word := if new = 0 then getGpr s 7 else new

/-- Push a frame at the resolved addresses, load the stack pointer, enter supervisor mode and go to `target` (60 R533). -/
def enterSupervisor (s : State) (ps : List Nat) (frame : List Byte) (sp target : Word) : State :=
  let s := { s with mem := s.mem.writeBytes ps frame, mode := supervisorMode s.mode, halted := false }
  branchTo (setGpr s 7 sp) target

/-- The entry sequence for vector `v`, with the ip, flags and sp to be saved; nothing is changed unless it succeeds (60 R533). -/
def enter (s : State) (v : Nat) (ip flags sp : Word) : Except Escalation State := do
  let e ← itabEntry s v
  let newSp := frameStack s e.sp - 32
  match translateAll s false .write newSp 32, checkTarget s false e.ip with
  | .ok ps, .ok _ => .ok (enterSupervisor s ps (frameBytes ip s.mode flags sp) newSp e.ip)
  | _, _ => .error .servicing

/-- Deliver ABRT: the saved ip, flags and sp are free values; any failure resets the CPU (60 R511, R535). -/
def deliverAbort (s : State) : State :=
  match enter { s with fcode := 0 } 0 (Config.abortIp s.freeCtr) (Config.abortFlags s.freeCtr) (Config.abortSp s.freeCtr) with
  | .ok t => t
  | .error _ => resetCpu s

/-- Deliver vector `v` of 1..15, `fcode` being written already: a failure escalates to ABRT, a misaligned table to reset
(60 R521, R522, R534). -/
def deliverException (s : State) (v : Nat) (savedIp : Word) : State :=
  match enter s v savedIp s.flags (getGpr s 7) with
  | .ok t => t
  | .error .misaligned => resetCpu s
  | .error _ => deliverAbort s

/-- Deliver PROT: `fcode` is 0 (60 R513). -/
def deliverProt (s : State) (savedIp : Word) : State := deliverException { s with fcode := 0 } 2 savedIp

/-- Deliver vector `v` of 16..63: outside the table PROT is delivered, with `protIp` saved; Debug Trap that cannot be serviced is
dropped (60 R521, R534). -/
def deliverInterrupt (s : State) (v : Nat) (savedIp protIp : Word) : State :=
  match enter s v savedIp s.flags (getGpr s 7) with
  | .ok t => t
  | .error .misaligned => resetCpu s
  | .error .outOfBounds => deliverProt s protIp
  | .error .servicing => if v = 16 then { s with ip := savedIp, halted := false } else deliverAbort s

/-- The 16 bytes of the fault information (20 R152). -/
def faultInfoBytes (i : PageFaultInfo) : List Byte :=
  bytesLE 8 i.pref.toNat ++ [i.plevel, i.kind] ++ bytesLE 2 i.status.toNat ++ bytesLE 4 0

/-- Write the fault information where `pfcharp` points, with supervisor rights; nothing if it is 0; `none` if it is misaligned or
the write faults (20 R152). -/
def writeFaultInfo (s : State) (i : PageFaultInfo) : Option State :=
  if s.pfcharp = 0 then some s
  else if s.pfcharp.extractLsb' 0 4 = 0#4 then
    match translateAll s false .write s.pfcharp 16 with
    | .ok ps => some { s with mem := s.mem.writeBytes ps (faultInfoBytes i) }
    | .error _ => none
  else none

/-- Take a synchronous exception raised by the instruction at `ip`: `fcode`, the fault information, then delivery with that
instruction's address saved (60 R527, R531, R533). -/
def takeException (s : State) (e : Exc) : State :=
  match e with
  | .und => deliverException { s with fcode := Config.freeFcode s.freeCtr } 1 s.ip
  | .prot => deliverProt s s.ip
  | .pf i =>
    match writeFaultInfo { s with fcode := i.fcode } i with
    | some t => deliverException t 3 s.ip
    | none => deliverAbort s
  | .xa t => deliverException { s with fcode := t } 4 s.ip
  | .div => deliverException { s with fcode := Config.freeFcode s.freeCtr } 6 s.ip

/-- What an instruction answers: its next state, the state after the exception it raised, or a stop of the model. -/
def finish (s : State) (r : Except Trap State) : Host.Outcome State Fault Refusal :=
  match r with
  | .ok t => .next t
  | .error (.exc e) => .next (takeException s e)
  | .error (.stop f) => .fault f
  | .error (.refuse f) => .refused f

/-- The return from an exception, interrupt or stack supervisor call: pop ip, mode, flags, sp (46 R472). -/
def returnFrame (s : State) : Except Trap State := do
  let sp := getGpr s 7
  let t ← memRead s sp 8
  let m ← memRead s (sp + 8) 8
  let f ← memRead s (sp + 16) 8
  let p ← memRead s (sp + 24) 8
  modeCheck s m
  checkTarget s (modeXM (writtenMode s m)) t
  let u := { s with flags := writtenFlags s f, mode := writtenMode s m }
  .ok (branchTo (setGpr u 7 p) t)

/-! ### What the environment may do between steps (70 R602) -/

/-- The environment raises an NMI. -/
def State.raiseNmi (s : State) : State := { s with nmi := true }

/-- The environment raises interrupt request 32 + `i`. -/
def State.raiseIrq (s : State) (i : Fin 32) : State := { s with irq := s.irq ||| (1#32 <<< i.val) }

end Sys2Proof.Machine
end

