-- ==== Sys2Proof/Machine/Operands.lean ====
section
/-!
DEFINITION. The operand primitives of 30 R200 to R211: sizes, kinds, effective addresses, reading, checking and writing operands,
and the operand constraints that instructions share.
-/

namespace Sys2Proof.Machine

/-! ### Sizes and kinds (30 R200, R201) -/

/-- The number of bits of a size. -/
def sizeBits (sz : Size) : Nat := 8 * sz.bytes

/-- `bits(op)` (30 R200). -/
def bitsOf : Operand → Nat
  | .reg sz _ => sizeBits sz
  | .ind _ _ sz _ => sizeBits sz
  | .short rel _ => if rel then 64 else 12
  | .long rel imm => if rel then 64 else 8 * imm.bytes
  | .mref _ _ sz => sizeBits sz

/-- The bytes an operand has in the instruction (30 R183). -/
def operandLength : Operand → Nat
  | .reg _ _ => 2
  | .ind _ _ _ _ => 2
  | .short _ _ => 2
  | .long _ imm => 2 + imm.bytes
  | .mref _ imm _ => 2 + imm.bytes

/-- `isReg(op)` (30 R201). -/
def isReg : Operand → Bool
  | .reg _ _ => true
  | .ind _ _ _ _ | .short _ _ | .long _ _ | .mref _ _ _ => false

/-- `isGpr(op)` (30 R201). -/
def isGpr : Operand → Bool
  | .reg _ r => decide (r.toNat < 16)
  | .ind _ _ _ _ | .short _ _ | .long _ _ | .mref _ _ _ => false

/-- `isMem(op)`: an indirect register or a memory reference (30 R201). -/
def isMem : Operand → Bool
  | .ind _ _ _ _ | .mref _ _ _ => true
  | .reg _ _ | .short _ _ | .long _ _ => false

/-- `isImm(op)`: an immediate value other than a memory reference (30 R201). -/
def isImm : Operand → Bool
  | .short _ _ | .long _ _ => true
  | .reg _ _ | .ind _ _ _ _ | .mref _ _ _ => false

/-- `isWritable(op)` (30 R201). -/
def isWritable (op : Operand) : Bool := isReg op || isMem op

/-- The size of the implied gpr of an `r` specialisation beside this explicit operand (30 R211). -/
def impliedBits (op : Operand) : Nat := if isImm op then 64 else bitsOf op

/-- The address after an instruction of `n` bytes (00 R16). -/
def nextAfter (s : State) (n : Nat) : Word := s.ip + BitVec.ofNat 64 n

/-- `next` of an instruction with these operands (00 R16, 30 R183). -/
def nextIp (s : State) (ops : List Operand) : Word := nextAfter s (2 + (ops.map operandLength).sum)

/-! ### Reading (30 R202, R203) -/

/-- An immediate, zero-extended. -/
def immZext : Imm → Word
  | .i16 v => v.setWidth 64
  | .i32 v => v.setWidth 64
  | .i64 v => v

/-- An immediate, sign-extended. -/
def immSext : Imm → Word
  | .i16 v => v.signExtend 64
  | .i32 v => v.signExtend 64
  | .i64 v => v

/-- The offset of an indirect operand before scaling (30 R202). -/
def indexValue (s : State) : Index → Word
  | .num o => o.setWidth 64
  | .gpr o => getGpr s o

/-- `AddrOf(op)` (30 R202); 0 for an operand without an address. -/
def addrOf (s : State) (next : Word) : Operand → Word
  | .ind index scale _ base => getGpr s base + (indexValue s index <<< scale.toNat)
  | .mref rel imm _ => if rel then immSext imm + next else immZext imm
  | .reg _ _ | .short _ _ | .long _ _ => 0

/-- `ReadOp(op)` without the register access check, zero-extended to 64 bits (30 R203). -/
def loadOp (s : State) (next : Word) (op : Operand) : Except Trap Word :=
  match op with
  | .reg sz r => .ok (trunc (sizeBits sz) (readReg s next r.toNat))
  | .ind index scale sz base => memRead s (addrOf s next (.ind index scale sz base)) sz.bytes
  | .mref rel imm sz => memRead s (addrOf s next (.mref rel imm sz)) sz.bytes
  | .short rel imm => .ok (if rel then imm.signExtend 64 + next else imm.setWidth 64)
  | .long rel imm => .ok (if rel then immSext imm + next else immZext imm)

/-! ### Checks and writing (30 R206 to R209) -/

/-- The register part of `CheckRead(op)` (30 R208, R209 step 7). -/
def opReadCheck (s : State) : Operand → Except Trap Unit
  | .reg _ r => regReadCheck s r.toNat
  | .ind _ _ _ _ | .short _ _ | .long _ _ | .mref _ _ _ => .ok ()

/-- The register part of `CheckWrite(op)` (30 R208, R209 step 7). -/
def opWriteCheck (s : State) : Operand → Except Trap Unit
  | .reg _ r => regWriteCheck s r.toNat
  | .ind _ _ _ _ | .short _ _ | .long _ _ | .mref _ _ _ => .ok ()

/-- The register part of the checks of an operand that is read and written: UND comes before PROT for one register, so a register that
cannot be written is UND even where it cannot be read (30 R209 step 7, log 5). -/
def opUpdateCheck (s : State) (op : Operand) : Except Trap Unit := do
  opWriteCheck s op
  opReadCheck s op

/-- Where a result goes, once the memory checks of the write have passed (30 R209 step 8). -/
inductive Dest where
  /-- a register, written with `bits` bits -/
  | reg (n : Nat) (bits : Nat)
  /-- the `flags` register, through `WriteFlags` (only `pop`, 41 R296) -/
  | flags
  /-- the bytes at these physical addresses -/
  | mem (ps : List Nat)
deriving DecidableEq, Repr

/-- The destination an operand names, with the memory part of `CheckWrite(op)` (30 R207, R208). -/
def destOf (s : State) (next : Word) (op : Operand) : Except Trap Dest :=
  match op with
  | .reg sz r => .ok (.reg r.toNat (sizeBits sz))
  | .ind index scale sz base => do
    let ps ← translateAll s s.xm .write (addrOf s next (.ind index scale sz base)) sz.bytes
    .ok (.mem ps)
  | .mref rel imm sz => do
    let ps ← translateAll s s.xm .write (addrOf s next (.mref rel imm sz)) sz.bytes
    .ok (.mem ps)
  | .short _ _ | .long _ _ => .error (.exc .und)

/-- The checks that depend on the value to be written (30 R209 step 9). -/
def destCheck (s : State) (d : Dest) (v : Word) : Except Trap Unit :=
  match d with
  | .reg n bits => regValueCheck s n (trunc bits v)
  | .flags | .mem _ => .ok ()

/-- `WriteOp`: a register gets the low bytes and zeros above (30 R206), memory the low bytes little-endian (30 R207). -/
def putDest (s : State) (d : Dest) (v : Word) : State :=
  match d with
  | .reg n bits => putReg s n (trunc bits v)
  | .flags => { s with flags := writtenFlags s v }
  | .mem ps => { s with mem := s.mem.writeBytes ps (bytesLE ps.length v.toNat) }

/-- The operand constraints of the two-operand ALU instructions and shifts (40 R241, 43 R350). -/
def aluShape (l : Bool) (a b : Operand) : Bool :=
  isWritable a && (isImm a || isImm b || isGpr a || isGpr b) && (!l || isMem a)

/-- The operand constraint of `mov` (41 R280). -/
def movShape (a b : Operand) : Bool := isWritable a && (isReg a || isReg b)

/-- The operand constraint of `lea` (41 R281). -/
def leaShape (a b : Operand) : Bool := movShape a b && isMem b

/-- The operand constraint of `pop` (41 R296). -/
def popShape (a : Operand) : Bool := isWritable a && bitsOf a == 64

/-- The operand constraint of `bnot` and `neg` (43 R362). -/
def unaryShape (l : Bool) (a : Operand) : Bool := isWritable a && (!l || isMem a)

/-- The operand constraint of `cmp` and `test` (43 R379). -/
def cmpShape (a b : Operand) : Bool := (isImm a || isImm b || isReg a || isReg b) && isWritable a

/-- The operand constraint of `xchg`, and of the first two operands of `cmpxchg` (44 R402, R403). -/
def xchgShape (a b : Operand) : Bool := (isReg a || isReg b) && isWritable a && isWritable b

/-- The operand constraint of `movsx` (41 R314). -/
def movsxShape (a b : Operand) : Bool := (isReg a || isReg b) && isWritable a

/-- The operand constraint of `bswap`: also equal sizes (41 R316). DESIGN CHOICE (log 40): an ip-relative short immediate has 64 bits (30
R200) and may stand beside a 64-bit destination. -/
def bswapShape (a b : Operand) : Bool := movsxShape a b && bitsOf a == bitsOf b

/-! ### The operands an instruction accesses -/

/-- The operands that an instruction reads or writes; those of a `nop` are not accessed (41 R290). -/
def operandsOf : Instr → List Operand
  | .add _ _ a b | .sub _ _ a b | .and _ _ a b | .or _ _ a b | .xor _ _ a b | .mov a b | .lea a b | .movsx _ a b | .bswap _ a b
  | .lsh _ _ a b | .rsh _ _ a b | .arsh _ _ a b | .lshc _ _ a b | .rshc _ _ a b | .lrot _ _ a b | .rrot _ _ a b | .cmp a b
  | .test a b | .xchg a b => [a, b]
  | .cmpxchg a b c | .wcmpxchg a b c => [a, b, c]
  | .movrToGpr _ a | .movrFromGpr _ a | .lear _ a | .push a | .pop a | .stogpr a | .stoar a | .rstogpr a | .rstoar a | .lshr _ a
  | .rshr _ a | .arshr _ a | .lshcr _ a | .rshcr _ a | .lrotr _ a | .rrotr _ a | .addrGprDst _ a | .subrGprDst _ a
  | .andrGprDst _ a | .orrGprDst _ a | .xorrGprDst _ a | .addrGprSrc _ a | .subrGprSrc _ a | .andrGprSrc _ a | .orrGprSrc _ a
  | .xorrGprSrc _ a | .bnot _ _ a | .neg _ _ a | .cmpr _ a | .testr _ a | .dflush a | .iflush a | .storegf a | .rstregf a => [a]
  | .und000 _ | .undFff _ | .mul _ _ | .div _ _ _ | .imul _ _ | .idiv _ _ _ | .nop0 | .nop1 _ | .nop2 _ _ | .nop3 _ _ _ | .pushr _
  | .popr _ | .pushgpr | .pushar | .popgpr | .popar | .repbi _ _ | .repbc _ _ | .bcpy _ | .bsto _ | .bsca _ | .bcmp _ | .btst _
  | .bnotr _ | .negr _ | .fence
  | .jp16 _ _ _ | .jc16 _ _ _ | .jv16 _ _ _ | .jz16 _ _ _ | .jlt16 _ _ _ | .jle16 _ _ _ | .jbe16 _ _ _ | .jmi16 _ _ _
  | .jpl16 _ _ _ | .ja16 _ _ _ | .jgt16 _ _ _ | .jge16 _ _ _ | .jnz16 _ _ _ | .jnv16 _ _ _ | .jnc16 _ _ _ | .jnp16 _ _ _
  | .jp32 _ _ _ | .jc32 _ _ _ | .jv32 _ _ _ | .jz32 _ _ _ | .jlt32 _ _ _ | .jle32 _ _ _ | .jbe32 _ _ _ | .jmi32 _ _ _
  | .jpl32 _ _ _ | .ja32 _ _ _ | .jgt32 _ _ _ | .jge32 _ _ _ | .jnz32 _ _ _ | .jnv32 _ _ _ | .jnc32 _ _ _ | .jnp32 _ _ _
  | .jp64 _ _ _ | .jc64 _ _ _ | .jv64 _ _ _ | .jz64 _ _ _ | .jlt64 _ _ _ | .jle64 _ _ _ | .jbe64 _ _ _ | .jmi64 _ _ _
  | .jpl64 _ _ _ | .ja64 _ _ _ | .jgt64 _ _ _ | .jge64 _ _ _ | .jnz64 _ _ _ | .jnv64 _ _ _ | .jnc64 _ _ _ | .jnp64 _ _ _
  | .jmp _ _ | .call _ _ | .fcall _ _ | .ret | .scall | .intr _ | .ijmp _ _ | .fret _ | .ifjmp _ | .icall _ _ | .ifcall _
  | .jsm _ _ | .callsm _ _ _ | .retrsm | .scret | .reti | .machineSpecific _ _ | .halt | .pcfl | .flall | .inp _ | .outp _ => []

/-- Is this operand one of the registers msr0..msr6 (10 R68)? -/
def isMsrOperand : Operand → Bool
  | .reg _ r => isMsr r.toNat
  | .ind _ _ _ _ | .short _ _ | .long _ _ | .mref _ _ _ => false

end Sys2Proof.Machine
end

