-- ==== Sys2Proof/Machine/Alu.lean ====
section
/-!
DEFINITION. und, and the ALU instructions with two operands, with a gpr destination and with a gpr
source (40_alu.md, 43 R369 to R371).
-/

namespace Sys2Proof.Machine

/-- `und`, opcode 0x000 (40 R240). -/
def execUnd000 (s : State) : Host.Outcome State Fault Refusal := finish s (.error (.exc .und))

/-- `und`, opcode 0xfff (40 R240). -/
def execUndFff (s : State) : Host.Outcome State Fault Refusal := finish s (.error (.exc .und))

/-- A two-operand ALU instruction (40 R242). With one CPU `l` has no effect beyond its constraint (20 R113, log 21). -/
def aluTwo (op : AluOp) (l f : Bool) (a b : Operand) (s : State) : Except Trap State := do
  let next := nextIp s [a, b]
  let d := bitsOf a
  require (aluShape l a b) (.exc .und)
  opUpdateCheck s a
  opReadCheck s b
  let x ← loadOp s next a
  let y ← loadOp s next b
  let dst ← destOf s next a
  let r := trunc d (op.apply x y)
  destCheck s dst r
  let flags := if f then s.flags else aluFlagsWide op s.flags d x y r s.freeCtr
  .ok { putDest s dst r with flags := flags, ip := next }

/-- The gpr-destination form: the explicit operand is the second source (43 R370). -/
def aluGprDst (op : AluOp) (g : BitVec 4) (a : Operand) (s : State) : Except Trap State := do
  let next := nextIp s [a]
  let d := impliedBits a
  opReadCheck s a
  let y ← loadOp s next a
  let x := trunc d (getGpr s g)
  let r := trunc d (op.apply x y)
  .ok { setGpr s g r with flags := aluFlags op s.flags d x y r, ip := next }

/-- The gpr-source form: the explicit operand is the destination (43 R371). -/
def aluGprSrc (op : AluOp) (g : BitVec 4) (a : Operand) (s : State) : Except Trap State := do
  let next := nextIp s [a]
  let d := bitsOf a
  require (isWritable a) (.exc .und)
  opUpdateCheck s a
  let x ← loadOp s next a
  let dst ← destOf s next a
  let y := trunc d (getGpr s g)
  let r := trunc d (op.apply x y)
  destCheck s dst r
  .ok { putDest s dst r with flags := aluFlags op s.flags d x y r, ip := next }

/-- `add` (40 R243). -/
def execAdd (l f : Bool) (a b : Operand) (s : State) : Host.Outcome State Fault Refusal :=
  finish s (aluTwo .add l f a b s)

/-- `sub` (40 R244). -/
def execSub (l f : Bool) (a b : Operand) (s : State) : Host.Outcome State Fault Refusal :=
  finish s (aluTwo .sub l f a b s)

/-- `and` (40 R245). -/
def execAnd (l f : Bool) (a b : Operand) (s : State) : Host.Outcome State Fault Refusal :=
  finish s (aluTwo .and l f a b s)

/-- `or` (40 R246). -/
def execOr (l f : Bool) (a b : Operand) (s : State) : Host.Outcome State Fault Refusal :=
  finish s (aluTwo .or l f a b s)

/-- `xor` (40 R247). -/
def execXor (l f : Bool) (a b : Operand) (s : State) : Host.Outcome State Fault Refusal :=
  finish s (aluTwo .xor l f a b s)

/-- `add`*r* with a gpr destination (43 R370). -/
def execAddrGprDst (r : BitVec 4) (a : Operand) (s : State) : Host.Outcome State Fault Refusal :=
  finish s (aluGprDst .add r a s)

/-- `sub`*r* with a gpr destination (43 R370). -/
def execSubrGprDst (r : BitVec 4) (a : Operand) (s : State) : Host.Outcome State Fault Refusal :=
  finish s (aluGprDst .sub r a s)

/-- `and`*r* with a gpr destination (43 R370). -/
def execAndrGprDst (r : BitVec 4) (a : Operand) (s : State) : Host.Outcome State Fault Refusal :=
  finish s (aluGprDst .and r a s)

/-- `or`*r* with a gpr destination (43 R370). -/
def execOrrGprDst (r : BitVec 4) (a : Operand) (s : State) : Host.Outcome State Fault Refusal :=
  finish s (aluGprDst .or r a s)

/-- `xor`*r* with a gpr destination (43 R370). -/
def execXorrGprDst (r : BitVec 4) (a : Operand) (s : State) : Host.Outcome State Fault Refusal :=
  finish s (aluGprDst .xor r a s)

/-- `add`*r* with a gpr source (43 R371). -/
def execAddrGprSrc (r : BitVec 4) (a : Operand) (s : State) : Host.Outcome State Fault Refusal :=
  finish s (aluGprSrc .add r a s)

/-- `sub`*r* with a gpr source (43 R371). -/
def execSubrGprSrc (r : BitVec 4) (a : Operand) (s : State) : Host.Outcome State Fault Refusal :=
  finish s (aluGprSrc .sub r a s)

/-- `and`*r* with a gpr source (43 R371). -/
def execAndrGprSrc (r : BitVec 4) (a : Operand) (s : State) : Host.Outcome State Fault Refusal :=
  finish s (aluGprSrc .and r a s)

/-- `or`*r* with a gpr source (43 R371). -/
def execOrrGprSrc (r : BitVec 4) (a : Operand) (s : State) : Host.Outcome State Fault Refusal :=
  finish s (aluGprSrc .or r a s)

/-- `xor`*r* with a gpr source (43 R371). -/
def execXorrGprSrc (r : BitVec 4) (a : Operand) (s : State) : Host.Outcome State Fault Refusal :=
  finish s (aluGprSrc .xor r a s)

end Sys2Proof.Machine
end

