-- ==== Sys2Proof/Machine/Atomic.lean ====
section
/-!
DEFINITION. xchg, cmpxchg, wcmpxchg and fence (44_atomic.md). With one CPU every instruction is one indivisible step (log 21).
-/

namespace Sys2Proof.Machine

/-- `xchg` (44 R402): no flags. -/
def xchgState (a b : Operand) (s : State) : Except Trap State := do
  let next := nextIp s [a, b]
  require (xchgShape a b) (.exc .und)
  opUpdateCheck s a
  opUpdateCheck s b
  let x ← loadOp s next a
  let y ← loadOp s next b
  let da ← destOf s next a
  let db ← destOf s next b
  destCheck s da y
  destCheck s db x
  .ok { putDest (putDest s da y) db x with ip := next }

/-- `cmpxchg` and `wcmpxchg` (44 R403, R404): `fail` is the spurious failure. Write permission on the first two operands is required
whatever the comparison gives; only Z is written. DESIGN CHOICE (log 37): where the comparison fails the first operand keeps all its bits,
and its store of the same value has no effect of its own. -/
def cmpxchgState (fail : Bool) (a b c : Operand) (s : State) : Except Trap State := do
  let next := nextIp s [a, b, c]
  require (xchgShape a b) (.exc .und)
  opUpdateCheck s a
  opUpdateCheck s b
  opReadCheck s c
  let x ← loadOp s next a
  let e ← loadOp s next b
  let n ← loadOp s next c
  let da ← destOf s next a
  let db ← destOf s next b
  let equal := x == e && !fail
  let dst := if equal then da else db
  let v := if equal then n else x
  destCheck s dst v
  .ok { putDest s dst v with flags := setBit s.flags 1 equal, ip := next }

/-- `xchg` (44 R402). -/
def execXchg (a b : Operand) (s : State) : Host.Outcome State Fault Refusal := finish s (xchgState a b s)

/-- `cmpxchg` (44 R403). -/
def execCmpxchg (a b c : Operand) (s : State) : Host.Outcome State Fault Refusal := finish s (cmpxchgState false a b c s)

/-- `wcmpxchg` (44 R404): whether the comparison fails spuriously is a free value. -/
def execWcmpxchg (a b c : Operand) (s : State) : Host.Outcome State Fault Refusal :=
  finish s (cmpxchgState (Config.spuriousFail s.freeCtr) a b c s)

/-- `fence` (44 R406): with one CPU all earlier accesses are complete already (log 21); no cache is flushed. -/
def execFence (s : State) : Host.Outcome State Fault Refusal := finish s (.ok { s with ip := nextAfter s 2 })

end Sys2Proof.Machine
end

