-- ==== Sys2Proof/Machine/Io.lean ====
section
/-!
DEFINITION. The I/O device space: IoRead and IoWrite (46 R490 to R493, 20 R135) with the devices of 60 R565 to R570.
-/

namespace Sys2Proof.Machine

/-- The devices, by address (46 R493). -/
inductive Device where
  /-- 0xfe80, the CPU count (60 R566) -/
  | cpuCount
  /-- 0xff00 + c, the Register Load Pointer of CPU c (60 R567) -/
  | loadPointer (c : Fin 128)
  /-- 0xff80 + c, the CPU Enable Control Word of CPU c (60 R568) -/
  | controlWord (c : Fin 128)
  /-- 0x7f00 + c, the cpuinfo query of CPU c (60 R570) -/
  | cpuInfo (c : Fin 128)
  /-- an address at or above 2^32 where the machine has a device: machine specific (46 R493, 00 R6 `IoDevice`) -/
  | machine
  /-- any other address: not available (46 R493) -/
  | none
deriving DecidableEq, Repr

/-- The CPU number a per-CPU device address names: its low 7 bits (46 R493). -/
def deviceCpu (a : Word) : Fin 128 := (a.extractLsb' 0 7).toFin

/-- Has the machine a device of its own at this address (00 R6 `IoDevice`)? -/
def machineDevice (cfg : Params) (a : Word) : Bool :=
  cfg.ioDevices.any fun r => decide (r.base ≤ a.toNat) && decide (a.toNat < r.base + r.size)

/-- The device at an address (46 R493); from 2^32 on the parameter says where there is one (00 R6 `IoDevice`). -/
def deviceAt (cfg : Params) (a : Word) : Device :=
  if 2 ^ 32 ≤ a.toNat then (if machineDevice cfg a then .machine else .none)
  else if a = 0xfe80 then .cpuCount
  else if a.toNat / 128 = 0xff00 / 128 then .loadPointer (deviceCpu a)
  else if a.toNat / 128 = 0xff80 / 128 then .controlWord (deviceCpu a)
  else if a.toNat / 128 = 0x7f00 / 128 then .cpuInfo (deviceCpu a)
  else .none

/-- Does the machine have CPU `c` (60 R565)? -/
def cpuPresent (s : State) (c : Fin 128) : Bool := decide (c.val ≤ s.cfg.otherCpus)

/-- Enable and Active of the Control Word of another CPU (60 R568). -/
def cpuEnabled (s : State) (c : Fin 128) : Bool := s.cecw[c.val].getLsbD 0

/-- A CPU is active if it is CPU 0, which executes, or if it is enabled with Active set (60 R568, R569). -/
def cpuActive (s : State) (c : Fin 128) : Bool := decide (c.val = 0) || (cpuEnabled s c && s.cecw[c.val].getLsbD 1)

/-- What a device answers where the spec states no answer: a free value (log 4). -/
def freeAnswer (s : State) (a : Word) : Word := Config.deviceAnswer s.freeCtr a

/-- The Control Word as it reads: for CPU 0, Enable set, bits 55:8 zero, and status and machine bits free (60 R568, R569, 93 U13). -/
def controlWordRead (s : State) (a : Word) (c : Fin 128) : Word :=
  if c.val = 0 then (freeAnswer s a &&& 0xff000000000000fe#64) ||| 1#64 else s.cecw[c.val]

/-- `IoRead(a, n)` (46 R490, R493): an absent device reads 0, an access size a device does not define a free value (92 D33).
DESIGN CHOICE (log 38): a Register Load Pointer reads back the value last written. -/
def ioRead (s : State) (a : Word) (n : Nat) : Word :=
  trunc (8 * n) <|
    match deviceAt s.cfg a with
    | .machine => freeAnswer s a
    | .cpuCount => if n = 2 then BitVec.ofNat 64 (s.cfg.otherCpus + 1) else freeAnswer s a
    | .loadPointer c =>
      if cpuPresent s c then (if n = 8 then s.rlp[c.val] else freeAnswer s a) else 0
    | .controlWord c =>
      if cpuPresent s c then (if n = 8 then controlWordRead s a c else freeAnswer s a) else 0
    | .cpuInfo c => if cpuPresent s c then freeAnswer s a else 0
    | .none => 0

/-- `out` to a Register Load Pointer (60 R567). -/
def writeLoadPointer (s : State) (c : Fin 128) (v : Word) : Except Trap State := do
  require (!(cpuActive s c || cpuEnabled s c)) (.stop .activeCpuDevice)
  require (physInRange s.cfg v) (.stop .loadPointerOutOfRange)
  .ok { s with rlp := s.rlp.set c.val v }

/-- `out` to a Control Word (60 R568): a disabled CPU's word is stored; enabling a CPU is refused (log 20). -/
def writeControlWord (s : State) (c : Fin 128) (v : Word) : Except Trap State := do
  require (!cpuActive s c) (.stop .activeCpuDevice)
  require (!(v.getLsbD 1 && !v.getLsbD 0)) (.stop .invalidControlWord)
  require (!(v.getLsbD 0 && v.extractLsb' 8 48 != 0#48)) (.stop .invalidControlWord)
  require (v.extractLsb' 56 8 == 0#8) (.refuse .machineControlBits)
  require (!(v.getLsbD 0 || cpuEnabled s c)) (.refuse .cpuEnable)
  .ok { s with cecw := s.cecw.set c.val v }

/-- Slot `k` of the cpuinfo registers of another CPU: `cpuex2` has bit 0 set and VAS at most 4, `cpuex3` to `cpuex6` are 0
(60 R570, 10 R64, R65). -/
def otherCpuSlot (c : Fin 128) (k : Nat) : Word :=
  let w := Config.otherCpuInfo c.val k
  if 3 ≤ k ∧ k ≤ 6 then 0
  else if k = 2 then
    (if 4 < (w.extractLsb' 5 3).toNat then (w &&& ~~~0xe0#64) ||| 0x80#64 else w) ||| 1#64
  else w

/-- The check of one byte of the cpuinfo query's target, a physical address (60 R570, 20 R131, R133). DESIGN CHOICE (log 39): `fcode` is that
physical address with paging on, too. -/
def queryByteCheck (s : State) (a : Word) : Except Trap Unit := do
  let nonPaged : BitVec 16 := if pagingOn s.cr0 then 0 else 0x0400
  require (physInRange s.cfg a) (pageFault s.xm a 0 0 Access.write.code (0x0200 ||| nonPaged))
  require (present s.cfg a) (pageFault s.xm a 0 0 0xff nonPaged)

/-- The checks of the `n` bytes from `a` on, in order. -/
def queryCheck (s : State) : Word → Nat → Except Trap Unit
  | _, 0 => .ok ()
  | a, n + 1 => do
    queryByteCheck s a
    queryCheck s (a + 1) n

/-- `out` to a cpuinfo query: 64 bytes at the physical address `v` (60 R570). -/
def writeCpuInfoQuery (s : State) (c : Fin 128) (v : Word) : Except Trap State := do
  require (!cpuActive s c) (.stop .activeCpuDevice)
  queryCheck s v 64
  let image := (List.range 8).flatMap fun k => bytesLE 8 (otherCpuSlot c k).toNat
  .ok { s with mem := s.mem.writeBytes ((List.range 64).map fun i => v.toNat + i) image }

/-- A write of `v` to a per-CPU device of CPU `c`: an absent CPU's device ignores it; the devices define 8-byte writes only
(60 R565, R567, R568, R570, 92 D33). -/
def writeCpuDevice (s : State) (c : Fin 128) (n : Nat) (k : Except Trap State) : Except Trap State :=
  if cpuPresent s c then (if n = 8 then k else .error (.refuse .deviceAccessSize)) else .ok s

/-- `IoWrite(a, n, v)` (46 R491, R493): an absent device ignores it; a device of the machine's own changes nothing that the CPU can see but
by its later answers (log 24). -/
def ioWrite (s : State) (a : Word) (n : Nat) (v : Word) : Except Trap State :=
  match deviceAt s.cfg a with
  | .machine => .ok s
  | .cpuCount => .error (.stop .cpuCountWrite)
  | .loadPointer c => writeCpuDevice s c n (writeLoadPointer s c v)
  | .controlWord c => writeCpuDevice s c n (writeControlWord s c v)
  | .cpuInfo c => writeCpuDevice s c n (writeCpuInfoQuery s c v)
  | .none => .ok s

end Sys2Proof.Machine
end

