-- ==== Sys2Proof/Machine/Block.lean ====
section
/-!
DEFINITION. Block operations (42 R335 to R339), in and out (46 R490, R491), their repeated forms (46 R492) and the repeat prefixes
(42 R331 to R333): one step is one iteration (70 R600).
-/

namespace Sys2Proof.Machine

/-- Add a size in bytes to an address register (42 R330). -/
def advance (s : State) (r : BitVec 4) (n : Nat) : State := setGpr s r (getGpr s r + BitVec.ofNat 64 n)

/-- One `bcpy`, without the advance of `ip` (42 R335). -/
def bcpyOnce (ss : Size) (s : State) : Except Trap State := do
  let n := ss.bytes
  let v ← memRead s (getGpr s 4) n
  let ps ← translateAll s s.xm .write (getGpr s 5) n
  let t := { s with mem := s.mem.writeBytes ps (bytesLE n v.toNat), flags := setZN s.flags v (sizeBits ss) }
  .ok (advance (advance t 4 n) 5 n)

/-- One `bsto` (42 R336). -/
def bstoOnce (ss : Size) (s : State) : Except Trap State := do
  let n := ss.bytes
  let v := trunc (sizeBits ss) (getGpr s 0)
  let ps ← translateAll s s.xm .write (getGpr s 5) n
  let t := { s with mem := s.mem.writeBytes ps (bytesLE n v.toNat), flags := setZN s.flags v (sizeBits ss) }
  .ok (advance t 5 n)

/-- One `bsca` (42 R337): r4 keeps its value. -/
def bscaOnce (ss : Size) (s : State) : Except Trap State := do
  let v ← memRead s (getGpr s 4) ss.bytes
  .ok { setGpr s 0 v with flags := setZN s.flags v (sizeBits ss) }

/-- One `bcmp` (42 R338). -/
def bcmpOnce (ss : Size) (s : State) : Except Trap State := do
  let a ← memRead s (getGpr s 4) ss.bytes
  let b ← memRead s (getGpr s 5) ss.bytes
  let t := { s with flags := compareFlags s.flags (sizeBits ss) a b }
  .ok (advance (advance t 4 ss.bytes) 5 ss.bytes)

/-- One `btst`: a comparison with r0 (42 R339). -/
def btstOnce (ss : Size) (s : State) : Except Trap State := do
  let a ← memRead s (getGpr s 4) ss.bytes
  let t := { s with flags := compareFlags s.flags (sizeBits ss) a (trunc (sizeBits ss) (getGpr s 0)) }
  .ok (advance t 4 ss.bytes)

/-- `in` (46 R490). -/
def inOnce (ss : Size) (s : State) : Except Trap State := do
  require (!s.xm) (.exc .prot)
  let v := ioRead s (getGpr s 2) ss.bytes
  .ok { setGpr s 0 v with flags := setZNP s.flags v (sizeBits ss) }

/-- `out` (46 R491). -/
def outOnce (ss : Size) (s : State) : Except Trap State := do
  require (!s.xm) (.exc .prot)
  ioWrite s (getGpr s 2) ss.bytes (trunc (sizeBits ss) (getGpr s 0))

/-- One repeated `in`: to memory at r5 (46 R492). -/
def inRepeated (ss : Size) (s : State) : Except Trap State := do
  let ps ← translateAll s s.xm .write (getGpr s 5) ss.bytes
  let v := ioRead s (getGpr s 2) ss.bytes
  let t := { s with mem := s.mem.writeBytes ps (bytesLE ss.bytes v.toNat), flags := setZNP s.flags v (sizeBits ss) }
  .ok (advance t 5 ss.bytes)

/-- One repeated `out`: from memory at r4 (46 R492). -/
def outRepeated (ss : Size) (s : State) : Except Trap State := do
  let v ← memRead s (getGpr s 4) ss.bytes
  let t ← ioWrite s (getGpr s 2) ss.bytes v
  .ok (advance t 4 ss.bytes)

/-- The faults of the follower's own decoding, raised before the first iteration (42 R331). -/
def followerCheck (s : State) : Follower → Except Trap Unit
  | .bcpy _ | .bsto _ | .bsca _ | .bcmp _ | .btst _ => .ok ()
  | .inp _ | .outp _ => require (!s.xm) (.exc .prot)
  | .invalid _ => .error (.exc .und)

/-- The follower's operation, once (42 R331). -/
def followerOnce (fo : Follower) (s : State) : Except Trap State :=
  match fo with
  | .bcpy ss => bcpyOnce ss s
  | .bsto ss => bstoOnce ss s
  | .bsca ss => bscaOnce ss s
  | .bcmp ss => bcmpOnce ss s
  | .btst ss => btstOnce ss s
  | .inp ss => inRepeated ss s
  | .outp ss => outRepeated ss s
  | .invalid _ => .error (.exc .und)

/-- After an iteration: past the unit if the stop test holds, else at the prefix again (42 R331). -/
def afterIteration (s t : State) (stop : Bool) : State := { t with ip := if stop then nextAfter s 4 else s.ip }

/-- One iteration of `repbi` (42 R332). -/
def repbiState (cc : Cond) (fo : Follower) (s : State) : Except Trap State := do
  followerCheck s fo
  let t ← followerOnce fo s
  .ok (afterIteration s t (condHolds cc t.flags))

/-- One iteration of `repbc` (42 R333); r1 = 0 on entry is the parameter `RepbcZeroEntry`. -/
def repbcState (cc : Cond) (fo : Follower) (s : State) : Except Trap State := do
  followerCheck s fo
  if getGpr s 1 = 0 ∧ s.cfg.repbcZeroEntry = .skip then .ok { s with ip := nextAfter s 4 }
  else do
    let t ← followerOnce fo s
    let u := setGpr t 1 (getGpr t 1 - 1)
    .ok (afterIteration s u (condHolds cc u.flags || getGpr u 1 == 0))

/-- A 2-byte instruction: its operation, then `ip` advances. -/
def thenNext (s : State) (r : Except Trap State) : Except Trap State := do
  let t ← r
  .ok { t with ip := nextAfter s 2 }

/-- `repbi` (42 R332). -/
def execRepbi (cc : Cond) (fo : Follower) (s : State) : Host.Outcome State Fault Refusal := finish s (repbiState cc fo s)

/-- `repbc` (42 R333). -/
def execRepbc (cc : Cond) (fo : Follower) (s : State) : Host.Outcome State Fault Refusal := finish s (repbcState cc fo s)

/-- `bcpy` (42 R335). -/
def execBcpy (ss : Size) (s : State) : Host.Outcome State Fault Refusal := finish s (thenNext s (bcpyOnce ss s))

/-- `bsto` (42 R336). -/
def execBsto (ss : Size) (s : State) : Host.Outcome State Fault Refusal := finish s (thenNext s (bstoOnce ss s))

/-- `bsca` (42 R337). -/
def execBsca (ss : Size) (s : State) : Host.Outcome State Fault Refusal := finish s (thenNext s (bscaOnce ss s))

/-- `bcmp` (42 R338). -/
def execBcmp (ss : Size) (s : State) : Host.Outcome State Fault Refusal := finish s (thenNext s (bcmpOnce ss s))

/-- `btst` (42 R339). -/
def execBtst (ss : Size) (s : State) : Host.Outcome State Fault Refusal := finish s (thenNext s (btstOnce ss s))

/-- `in` (46 R490). -/
def execInp (ss : Size) (s : State) : Host.Outcome State Fault Refusal := finish s (thenNext s (inOnce ss s))

/-- `out` (46 R491). -/
def execOutp (ss : Size) (s : State) : Host.Outcome State Fault Refusal := finish s (thenNext s (outOnce ss s))

end Sys2Proof.Machine
end

