-- ==== Sys2Proof/Machine/Stack.lean ====
section
/-!
DEFINITION. push, pop and their gpr forms (41 R294 to R298), and the bulk register instructions (41 R300 to R309).
-/

namespace Sys2Proof.Machine

/-! ### Single items -/

/-- The write checks of an 8-byte push (41 R295): the physical addresses at `sp - 8`. -/
def pushCheck (s : State) : Except Trap (List Nat) := translateAll s s.xm .write (getGpr s 7 - 8) 8

/-- Store a pushed value at the resolved addresses and lower `sp` (41 R295). -/
def pushAt (s : State) (ps : List Nat) (v : Word) : State :=
  setGpr { s with mem := s.mem.writeBytes ps (bytesLE 8 v.toNat) } 7 (getGpr s 7 - 8)

/-- `push` (41 R295). -/
def pushState (a : Operand) (s : State) : Except Trap State := do
  let next := nextIp s [a]
  opReadCheck s a
  let v ← loadOp s next a
  let ps ← pushCheck s
  .ok { pushAt s ps v with ip := next }

/-- The register part of `pop`'s check: `flags` is accepted (41 R296). -/
def popCheck (s : State) : Operand → Except Trap Unit
  | .reg sz r => if r = 17 then .ok () else opWriteCheck s (.reg sz r)
  | .ind _ _ _ _ | .short _ _ | .long _ _ | .mref _ _ _ => .ok ()

/-- The destination of `pop`; a memory operand's address is computed from the old `sp` (41 R294, R296). -/
def popDest (s : State) (next : Word) (a : Operand) : Except Trap Dest :=
  match a with
  | .reg sz r => if r = 17 then .ok .flags else destOf s next (.reg sz r)
  | .ind i k sz b => destOf s next (.ind i k sz b)
  | .mref rel imm sz => destOf s next (.mref rel imm sz)
  | .short rel imm => destOf s next (.short rel imm)
  | .long rel imm => destOf s next (.long rel imm)

/-- `pop` (41 R296): `sp` rises by 8 unless it is the register popped into. -/
def popState (a : Operand) (s : State) : Except Trap State := do
  let next := nextIp s [a]
  require (popShape a) (.exc .und)
  popCheck s a
  let v ← memRead s (getGpr s 7) 8
  let dst ← popDest s next a
  destCheck s dst v
  let t := putDest s dst v
  .ok { (if dst = .reg 7 64 then t else setGpr t 7 (getGpr s 7 + 8)) with ip := next }

/-- `push`*r* (41 R297). -/
def pushrState (r : BitVec 4) (s : State) : Except Trap State := do
  let ps ← pushCheck s
  .ok { pushAt s ps (getGpr s r) with ip := nextAfter s 2 }

/-- `pop`*r* (41 R298). -/
def poprState (r : BitVec 4) (s : State) : Except Trap State := do
  let v ← memRead s (getGpr s 7) 8
  .ok { setGpr (setGpr s 7 (getGpr s 7 + 8)) r v with ip := nextAfter s 2 }

/-! ### Bulk register storage -/

/-- Slot `i` of a register image (41 R300). -/
def slotOf (image : List Byte) (i : Nat) : Word := BitVec.ofNat 64 (valueLE ((image.drop (8 * i)).take 8))

/-- A register image: the values in order, 8 little-endian bytes each (41 R300). -/
def imageOf (values : List Word) : List Byte := values.flatMap fun v => bytesLE 8 v.toNat

/-- r0..r15 in order (41 R302). -/
def gprImage (s : State) : List Byte := imageOf s.gpr.toList

/-- Registers 0..31 in order: `ip` as `next`, reserved registers as 0 (41 R303). -/
def programImage (s : State) (next : Word) : List Byte := imageOf ((List.range 32).map (readReg s next))

/-- r0..r15 from the slots of an image (41 R304). -/
def loadGprs (s : State) (image : List Byte) : State := { s with gpr := Vector.ofFn fun i => slotOf image i.val }

/-- `stogpr` and `stoar`: store an image at a memory operand as one access (41 R302, R303). -/
def storeImage (a : Operand) (image : List Byte) (s : State) : Except Trap State := do
  let next := nextIp s [a]
  require (isMem a) (.exc .und)
  let ps ← translateAll s s.xm .write (addrOf s next a) image.length
  .ok { s with mem := s.mem.writeBytes ps image, ip := next }

/-- `pushgpr` and `pushar`: store an image below `sp` as one access, then lower `sp` (41 R306, R307). -/
def pushImage (image : List Byte) (s : State) : Except Trap State := do
  let base := getGpr s 7 - BitVec.ofNat 64 image.length
  let ps ← translateAll s s.xm .write base image.length
  .ok { setGpr { s with mem := s.mem.writeBytes ps image } 7 base with ip := nextAfter s 2 }

/-- Restore r0..r15 from the 128 bytes at `base` (41 R304, R308). -/
def restoreGprs (base next : Word) (s : State) : Except Trap State := do
  let image ← memBytes s base 128
  .ok { loadGprs s image with ip := next }

/-- Restore registers 0..31 but `ip` from the 256 bytes at `base`: reserved slots must be 0, `flags` and `mode` through their writes;
the write of `mode` synchronises the instruction stream (41 R305, R309). -/
def restoreProgram (base next : Word) (s : State) : Except Trap State := do
  let image ← memBytes s base 256
  require ((List.range 13).all fun i => slotOf image (19 + i) == 0) (.exc .prot)
  modeCheck s (slotOf image 18)
  .ok (syncCode { loadGprs s image with
    flags := writtenFlags s (slotOf image 17), mode := writtenMode s (slotOf image 18), ip := next })

/-- `rstogpr` (41 R304). -/
def rstogprState (a : Operand) (s : State) : Except Trap State := do
  let next := nextIp s [a]
  require (isMem a) (.exc .und)
  restoreGprs (addrOf s next a) next s

/-- `rstoar` (41 R305). -/
def rstoarState (a : Operand) (s : State) : Except Trap State := do
  let next := nextIp s [a]
  require (isMem a) (.exc .und)
  restoreProgram (addrOf s next a) next s

/-- `push` (41 R295). -/
def execPush (a : Operand) (s : State) : Host.Outcome State Fault Refusal := finish s (pushState a s)

/-- `pop` (41 R296). -/
def execPop (a : Operand) (s : State) : Host.Outcome State Fault Refusal := finish s (popState a s)

/-- `push`*r* (41 R297). -/
def execPushr (r : BitVec 4) (s : State) : Host.Outcome State Fault Refusal := finish s (pushrState r s)

/-- `pop`*r* (41 R298). -/
def execPopr (r : BitVec 4) (s : State) : Host.Outcome State Fault Refusal := finish s (poprState r s)

/-- `stogpr` (41 R302). -/
def execStogpr (a : Operand) (s : State) : Host.Outcome State Fault Refusal := finish s (storeImage a (gprImage s) s)

/-- `stoar` (41 R303). -/
def execStoar (a : Operand) (s : State) : Host.Outcome State Fault Refusal :=
  finish s (storeImage a (programImage s (nextIp s [a])) s)

/-- `rstogpr` (41 R304). -/
def execRstogpr (a : Operand) (s : State) : Host.Outcome State Fault Refusal := finish s (rstogprState a s)

/-- `rstoar` (41 R305). -/
def execRstoar (a : Operand) (s : State) : Host.Outcome State Fault Refusal := finish s (rstoarState a s)

/-- `pushgpr` (41 R306). -/
def execPushgpr (s : State) : Host.Outcome State Fault Refusal := finish s (pushImage (gprImage s) s)

/-- `pushar` (41 R307). -/
def execPushar (s : State) : Host.Outcome State Fault Refusal := finish s (pushImage (programImage s (nextAfter s 2)) s)

/-- `popgpr` (41 R308). -/
def execPopgpr (s : State) : Host.Outcome State Fault Refusal :=
  finish s (restoreGprs (getGpr s 7) (nextAfter s 2) s)

/-- `popar` (41 R309). -/
def execPopar (s : State) : Host.Outcome State Fault Refusal :=
  finish s (restoreProgram (getGpr s 7) (nextAfter s 2) s)

end Sys2Proof.Machine
end

