-- ==== Sys2Proof/Machine/Branch.lean ====
section
/-!
DEFINITION. Branches, calls, returns, mode-setting branches, int and scall (45_branch.md).
-/

namespace Sys2Proof.Machine

/-! ### Targets (45 R421) -/

/-- The target an immediate names (45 R421). -/
def immTarget (rel : Bool) (imm : Imm) (next : Word) : Word := if rel then next + immSext imm else immZext imm

/-- The target a register names (45 R421). -/
def regTarget (rel : Bool) (v next : Word) : Word := if rel then next + v else v

/-- `next` of a branch with an immediate (45 R420). -/
def nextImm (s : State) (imm : Imm) : Word := nextAfter s (2 + imm.bytes)

/-! ### The operations -/

/-- Go to `t` (45 R421, R422). -/
def jumpState (t : Word) (s : State) : Except Trap State := do
  checkTarget s s.xm t
  .ok (branchTo s t)

/-- A conditional branch (45 R426): without its condition there is no check of the target. The weight has no effect. -/
def condState (cc : Cond) (rel : Bool) (imm : Imm) (s : State) : Except Trap State :=
  if condHolds cc s.flags then jumpState (immTarget rel imm (nextImm s imm)) s else .ok { s with ip := nextImm s imm }

/-- Push `next` and go to `t` (45 R431, R438): the store is checked before the target (45 R429). -/
def callState (t next : Word) (s : State) : Except Trap State := do
  let ps ← pushCheck s
  checkTarget s s.xm t
  .ok (branchTo (pushAt s ps next) t)

/-- Store `next` in r14 and go to `t` (45 R432, R439). -/
def fastCallState (t next : Word) (s : State) : Except Trap State := do
  checkTarget s s.xm t
  .ok (branchTo (setGpr s 14 next) t)

/-- `ret` (45 R433). -/
def retState (s : State) : Except Trap State := do
  let t ← memRead s (getGpr s 7) 8
  checkTarget s s.xm t
  .ok (branchTo (setGpr s 7 (getGpr s 7 + 8)) t)

/-- `int` (45 R435, 60 R551, R553). -/
def intState (i : BitVec 4) (s : State) : Except Trap State :=
  if interruptsOn s.cr0 then .ok (deliverInterrupt s (16 + i.toNat) (nextAfter s 2) s.ip)
  else
    match s.cfg.intWhenDisabled with
    | .ignored => .ok { s with ip := nextAfter s 2 }
    | .prot => .error (.exc .prot)

/-- `WriteMode(m)` and a branch to `t`, checked under the new mode (10 R37, 45 R421): the write and the branch both synchronise. -/
def setModeAndGo (s : State) (m t : Word) : Except Trap State := do
  modeCheck s m
  checkTarget s (modeXM (writtenMode s m)) t
  .ok (branchTo { s with mode := writtenMode s m } t)

/-- `jsm` (45 R440). -/
def jsmState (rel : Bool) (imm : Imm) (s : State) : Except Trap State :=
  setModeAndGo s (getGpr s 0) (immTarget rel imm (nextImm s imm))

/-- What `callsm` pushes, from the new stack pointer upwards (45 R441). -/
def callsmFrame (v : Bool) (next mode : Word) : List Byte :=
  bytesLE 8 next.toNat ++ if v then bytesLE 8 mode.toNat else []

/-- `callsm` (45 R441); the memory checks come before the check of the mode, as 30 R209 orders them (log 5). -/
def callsmState (rel v : Bool) (imm : Imm) (s : State) : Except Trap State := do
  let next := nextImm s imm
  let t := immTarget rel imm next
  let m := getGpr s 0
  let frame := callsmFrame v next s.mode
  let sp := getGpr s 7 - BitVec.ofNat 64 frame.length
  let ps ← translateAll s s.xm .write sp frame.length
  modeCheck s m
  checkTarget s (modeXM (writtenMode s m)) t
  let u := { s with mem := s.mem.writeBytes ps frame, mode := writtenMode s m }
  .ok (branchTo (setGpr u 7 sp) t)

/-- `retrsm` (45 R442). -/
def retrsmState (s : State) : Except Trap State := do
  let t ← memRead s (getGpr s 7) 8
  let m ← memRead s (getGpr s 7 + 8) 8
  let u ← setModeAndGo s m t
  .ok (setGpr u 7 (getGpr s 7 + 16))

/-- sccr.fc: the fast supervisor call (10 R60). -/
def fastCalls (s : State) : Bool := s.sccr.getLsbD 1

/-- The fast supervisor call (45 R450). -/
def scallFast (s : State) : Except Trap State := do
  checkTarget s false s.scdp
  let u := setGpr (setGpr s 12 (getGpr s 7)) 7 (frameStack s s.scsp)
  let u := setGpr (setGpr u 13 s.mode) 14 (nextAfter s 2)
  .ok (branchTo { u with mode := supervisorMode s.mode } s.scdp)

/-- The stack supervisor call: a frame of four values, pushed with supervisor rights; a fault of the push reports the caller's mode
(45 R450, 20 R152). -/
def scallStack (s : State) : Except Trap State := do
  let sp := frameStack s s.scsp - 32
  let ps ← reportMode s.xm (translateAll s false .write sp 32)
  checkTarget s false s.scdp
  .ok (enterSupervisor s ps (frameBytes (nextAfter s 2) s.mode s.flags (getGpr s 7)) sp s.scdp)

/-- `scall` (45 R450). -/
def scallState (s : State) : Except Trap State := do
  require (s.scdp != 0) (.exc .prot)
  if fastCalls s then scallFast s else scallStack s

/-! ### Conditional branches (45 R426) -/

/-- `jp` (Parity) with a 2-byte immediate. -/
def execJp16 (rel : Bool) (_weight : BitVec 4) (imm : BitVec 16) (s : State) : Host.Outcome State Fault Refusal :=
  finish s (condState .p rel (.i16 imm) s)

/-- `jc` (Carry) with a 2-byte immediate. -/
def execJc16 (rel : Bool) (_weight : BitVec 4) (imm : BitVec 16) (s : State) : Host.Outcome State Fault Refusal :=
  finish s (condState .c rel (.i16 imm) s)

/-- `jv` (Overflow) with a 2-byte immediate. -/
def execJv16 (rel : Bool) (_weight : BitVec 4) (imm : BitVec 16) (s : State) : Host.Outcome State Fault Refusal :=
  finish s (condState .v rel (.i16 imm) s)

/-- `jz` (Zero/Eq) with a 2-byte immediate. -/
def execJz16 (rel : Bool) (_weight : BitVec 4) (imm : BitVec 16) (s : State) : Host.Outcome State Fault Refusal :=
  finish s (condState .z rel (.i16 imm) s)

/-- `jlt` (Less Than) with a 2-byte immediate. -/
def execJlt16 (rel : Bool) (_weight : BitVec 4) (imm : BitVec 16) (s : State) : Host.Outcome State Fault Refusal :=
  finish s (condState .lt rel (.i16 imm) s)

/-- `jle` (Less or Eq) with a 2-byte immediate. -/
def execJle16 (rel : Bool) (_weight : BitVec 4) (imm : BitVec 16) (s : State) : Host.Outcome State Fault Refusal :=
  finish s (condState .le rel (.i16 imm) s)

/-- `jbe` (Below or Eq) with a 2-byte immediate. -/
def execJbe16 (rel : Bool) (_weight : BitVec 4) (imm : BitVec 16) (s : State) : Host.Outcome State Fault Refusal :=
  finish s (condState .be rel (.i16 imm) s)

/-- `jmi` (Minus) with a 2-byte immediate. -/
def execJmi16 (rel : Bool) (_weight : BitVec 4) (imm : BitVec 16) (s : State) : Host.Outcome State Fault Refusal :=
  finish s (condState .mi rel (.i16 imm) s)

/-- `jpl` (Plus) with a 2-byte immediate. -/
def execJpl16 (rel : Bool) (_weight : BitVec 4) (imm : BitVec 16) (s : State) : Host.Outcome State Fault Refusal :=
  finish s (condState .pl rel (.i16 imm) s)

/-- `ja` (Above) with a 2-byte immediate. -/
def execJa16 (rel : Bool) (_weight : BitVec 4) (imm : BitVec 16) (s : State) : Host.Outcome State Fault Refusal :=
  finish s (condState .a rel (.i16 imm) s)

/-- `jgt` (Greater) with a 2-byte immediate. -/
def execJgt16 (rel : Bool) (_weight : BitVec 4) (imm : BitVec 16) (s : State) : Host.Outcome State Fault Refusal :=
  finish s (condState .gt rel (.i16 imm) s)

/-- `jge` (Greater/Eq) with a 2-byte immediate. -/
def execJge16 (rel : Bool) (_weight : BitVec 4) (imm : BitVec 16) (s : State) : Host.Outcome State Fault Refusal :=
  finish s (condState .ge rel (.i16 imm) s)

/-- `jnz` (Not Zero/Eq) with a 2-byte immediate. -/
def execJnz16 (rel : Bool) (_weight : BitVec 4) (imm : BitVec 16) (s : State) : Host.Outcome State Fault Refusal :=
  finish s (condState .nz rel (.i16 imm) s)

/-- `jnv` (No Overflow) with a 2-byte immediate. -/
def execJnv16 (rel : Bool) (_weight : BitVec 4) (imm : BitVec 16) (s : State) : Host.Outcome State Fault Refusal :=
  finish s (condState .nv rel (.i16 imm) s)

/-- `jnc` (No Carry) with a 2-byte immediate. -/
def execJnc16 (rel : Bool) (_weight : BitVec 4) (imm : BitVec 16) (s : State) : Host.Outcome State Fault Refusal :=
  finish s (condState .nc rel (.i16 imm) s)

/-- `jnp` (No Parity) with a 2-byte immediate. -/
def execJnp16 (rel : Bool) (_weight : BitVec 4) (imm : BitVec 16) (s : State) : Host.Outcome State Fault Refusal :=
  finish s (condState .np rel (.i16 imm) s)

/-- `jp` (Parity) with a 4-byte immediate. -/
def execJp32 (rel : Bool) (_weight : BitVec 4) (imm : BitVec 32) (s : State) : Host.Outcome State Fault Refusal :=
  finish s (condState .p rel (.i32 imm) s)

/-- `jc` (Carry) with a 4-byte immediate. -/
def execJc32 (rel : Bool) (_weight : BitVec 4) (imm : BitVec 32) (s : State) : Host.Outcome State Fault Refusal :=
  finish s (condState .c rel (.i32 imm) s)

/-- `jv` (Overflow) with a 4-byte immediate. -/
def execJv32 (rel : Bool) (_weight : BitVec 4) (imm : BitVec 32) (s : State) : Host.Outcome State Fault Refusal :=
  finish s (condState .v rel (.i32 imm) s)

/-- `jz` (Zero/Eq) with a 4-byte immediate. -/
def execJz32 (rel : Bool) (_weight : BitVec 4) (imm : BitVec 32) (s : State) : Host.Outcome State Fault Refusal :=
  finish s (condState .z rel (.i32 imm) s)

/-- `jlt` (Less Than) with a 4-byte immediate. -/
def execJlt32 (rel : Bool) (_weight : BitVec 4) (imm : BitVec 32) (s : State) : Host.Outcome State Fault Refusal :=
  finish s (condState .lt rel (.i32 imm) s)

/-- `jle` (Less or Eq) with a 4-byte immediate. -/
def execJle32 (rel : Bool) (_weight : BitVec 4) (imm : BitVec 32) (s : State) : Host.Outcome State Fault Refusal :=
  finish s (condState .le rel (.i32 imm) s)

/-- `jbe` (Below or Eq) with a 4-byte immediate. -/
def execJbe32 (rel : Bool) (_weight : BitVec 4) (imm : BitVec 32) (s : State) : Host.Outcome State Fault Refusal :=
  finish s (condState .be rel (.i32 imm) s)

/-- `jmi` (Minus) with a 4-byte immediate. -/
def execJmi32 (rel : Bool) (_weight : BitVec 4) (imm : BitVec 32) (s : State) : Host.Outcome State Fault Refusal :=
  finish s (condState .mi rel (.i32 imm) s)

/-- `jpl` (Plus) with a 4-byte immediate. -/
def execJpl32 (rel : Bool) (_weight : BitVec 4) (imm : BitVec 32) (s : State) : Host.Outcome State Fault Refusal :=
  finish s (condState .pl rel (.i32 imm) s)

/-- `ja` (Above) with a 4-byte immediate. -/
def execJa32 (rel : Bool) (_weight : BitVec 4) (imm : BitVec 32) (s : State) : Host.Outcome State Fault Refusal :=
  finish s (condState .a rel (.i32 imm) s)

/-- `jgt` (Greater) with a 4-byte immediate. -/
def execJgt32 (rel : Bool) (_weight : BitVec 4) (imm : BitVec 32) (s : State) : Host.Outcome State Fault Refusal :=
  finish s (condState .gt rel (.i32 imm) s)

/-- `jge` (Greater/Eq) with a 4-byte immediate. -/
def execJge32 (rel : Bool) (_weight : BitVec 4) (imm : BitVec 32) (s : State) : Host.Outcome State Fault Refusal :=
  finish s (condState .ge rel (.i32 imm) s)

/-- `jnz` (Not Zero/Eq) with a 4-byte immediate. -/
def execJnz32 (rel : Bool) (_weight : BitVec 4) (imm : BitVec 32) (s : State) : Host.Outcome State Fault Refusal :=
  finish s (condState .nz rel (.i32 imm) s)

/-- `jnv` (No Overflow) with a 4-byte immediate. -/
def execJnv32 (rel : Bool) (_weight : BitVec 4) (imm : BitVec 32) (s : State) : Host.Outcome State Fault Refusal :=
  finish s (condState .nv rel (.i32 imm) s)

/-- `jnc` (No Carry) with a 4-byte immediate. -/
def execJnc32 (rel : Bool) (_weight : BitVec 4) (imm : BitVec 32) (s : State) : Host.Outcome State Fault Refusal :=
  finish s (condState .nc rel (.i32 imm) s)

/-- `jnp` (No Parity) with a 4-byte immediate. -/
def execJnp32 (rel : Bool) (_weight : BitVec 4) (imm : BitVec 32) (s : State) : Host.Outcome State Fault Refusal :=
  finish s (condState .np rel (.i32 imm) s)

/-- `jp` (Parity) with a 8-byte immediate. -/
def execJp64 (rel : Bool) (_weight : BitVec 4) (imm : BitVec 64) (s : State) : Host.Outcome State Fault Refusal :=
  finish s (condState .p rel (.i64 imm) s)

/-- `jc` (Carry) with a 8-byte immediate. -/
def execJc64 (rel : Bool) (_weight : BitVec 4) (imm : BitVec 64) (s : State) : Host.Outcome State Fault Refusal :=
  finish s (condState .c rel (.i64 imm) s)

/-- `jv` (Overflow) with a 8-byte immediate. -/
def execJv64 (rel : Bool) (_weight : BitVec 4) (imm : BitVec 64) (s : State) : Host.Outcome State Fault Refusal :=
  finish s (condState .v rel (.i64 imm) s)

/-- `jz` (Zero/Eq) with a 8-byte immediate. -/
def execJz64 (rel : Bool) (_weight : BitVec 4) (imm : BitVec 64) (s : State) : Host.Outcome State Fault Refusal :=
  finish s (condState .z rel (.i64 imm) s)

/-- `jlt` (Less Than) with a 8-byte immediate. -/
def execJlt64 (rel : Bool) (_weight : BitVec 4) (imm : BitVec 64) (s : State) : Host.Outcome State Fault Refusal :=
  finish s (condState .lt rel (.i64 imm) s)

/-- `jle` (Less or Eq) with a 8-byte immediate. -/
def execJle64 (rel : Bool) (_weight : BitVec 4) (imm : BitVec 64) (s : State) : Host.Outcome State Fault Refusal :=
  finish s (condState .le rel (.i64 imm) s)

/-- `jbe` (Below or Eq) with a 8-byte immediate. -/
def execJbe64 (rel : Bool) (_weight : BitVec 4) (imm : BitVec 64) (s : State) : Host.Outcome State Fault Refusal :=
  finish s (condState .be rel (.i64 imm) s)

/-- `jmi` (Minus) with a 8-byte immediate. -/
def execJmi64 (rel : Bool) (_weight : BitVec 4) (imm : BitVec 64) (s : State) : Host.Outcome State Fault Refusal :=
  finish s (condState .mi rel (.i64 imm) s)

/-- `jpl` (Plus) with a 8-byte immediate. -/
def execJpl64 (rel : Bool) (_weight : BitVec 4) (imm : BitVec 64) (s : State) : Host.Outcome State Fault Refusal :=
  finish s (condState .pl rel (.i64 imm) s)

/-- `ja` (Above) with a 8-byte immediate. -/
def execJa64 (rel : Bool) (_weight : BitVec 4) (imm : BitVec 64) (s : State) : Host.Outcome State Fault Refusal :=
  finish s (condState .a rel (.i64 imm) s)

/-- `jgt` (Greater) with a 8-byte immediate. -/
def execJgt64 (rel : Bool) (_weight : BitVec 4) (imm : BitVec 64) (s : State) : Host.Outcome State Fault Refusal :=
  finish s (condState .gt rel (.i64 imm) s)

/-- `jge` (Greater/Eq) with a 8-byte immediate. -/
def execJge64 (rel : Bool) (_weight : BitVec 4) (imm : BitVec 64) (s : State) : Host.Outcome State Fault Refusal :=
  finish s (condState .ge rel (.i64 imm) s)

/-- `jnz` (Not Zero/Eq) with a 8-byte immediate. -/
def execJnz64 (rel : Bool) (_weight : BitVec 4) (imm : BitVec 64) (s : State) : Host.Outcome State Fault Refusal :=
  finish s (condState .nz rel (.i64 imm) s)

/-- `jnv` (No Overflow) with a 8-byte immediate. -/
def execJnv64 (rel : Bool) (_weight : BitVec 4) (imm : BitVec 64) (s : State) : Host.Outcome State Fault Refusal :=
  finish s (condState .nv rel (.i64 imm) s)

/-- `jnc` (No Carry) with a 8-byte immediate. -/
def execJnc64 (rel : Bool) (_weight : BitVec 4) (imm : BitVec 64) (s : State) : Host.Outcome State Fault Refusal :=
  finish s (condState .nc rel (.i64 imm) s)

/-- `jnp` (No Parity) with a 8-byte immediate. -/
def execJnp64 (rel : Bool) (_weight : BitVec 4) (imm : BitVec 64) (s : State) : Host.Outcome State Fault Refusal :=
  finish s (condState .np rel (.i64 imm) s)

/-! ### The other branches -/

/-- `jmp` (45 R430). -/
def execJmp (rel : Bool) (imm : Imm) (s : State) : Host.Outcome State Fault Refusal :=
  finish s (jumpState (immTarget rel imm (nextImm s imm)) s)

/-- `call` (45 R431). -/
def execCall (rel : Bool) (imm : Imm) (s : State) : Host.Outcome State Fault Refusal :=
  finish s (callState (immTarget rel imm (nextImm s imm)) (nextImm s imm) s)

/-- `fcall` (45 R432). -/
def execFcall (rel : Bool) (imm : Imm) (s : State) : Host.Outcome State Fault Refusal :=
  finish s (fastCallState (immTarget rel imm (nextImm s imm)) (nextImm s imm) s)

/-- `ret` (45 R433). -/
def execRet (s : State) : Host.Outcome State Fault Refusal := finish s (retState s)

/-- `scall` (45 R450). -/
def execScall (s : State) : Host.Outcome State Fault Refusal := finish s (scallState s)

/-- `int` (45 R435). -/
def execIntr (i : BitVec 4) (s : State) : Host.Outcome State Fault Refusal := finish s (intState i s)

/-- `ijmp` (45 R436). -/
def execIjmp (rel : Bool) (r : BitVec 4) (s : State) : Host.Outcome State Fault Refusal :=
  finish s (jumpState (regTarget rel (getGpr s r) (nextAfter s 2)) s)

/-- `fret`: `ijmp` through r14 (45 R437). -/
def execFret (rel : Bool) (s : State) : Host.Outcome State Fault Refusal :=
  finish s (jumpState (regTarget rel (getGpr s 14) (nextAfter s 2)) s)

/-- `ifjmp`: `ijmp` through r15 (45 R437). -/
def execIfjmp (rel : Bool) (s : State) : Host.Outcome State Fault Refusal :=
  finish s (jumpState (regTarget rel (getGpr s 15) (nextAfter s 2)) s)

/-- `icall` (45 R438). -/
def execIcall (rel : Bool) (r : BitVec 4) (s : State) : Host.Outcome State Fault Refusal :=
  finish s (callState (regTarget rel (getGpr s r) (nextAfter s 2)) (nextAfter s 2) s)

/-- `ifcall` (45 R439). -/
def execIfcall (rel : Bool) (s : State) : Host.Outcome State Fault Refusal :=
  finish s (fastCallState (regTarget rel (getGpr s 15) (nextAfter s 2)) (nextAfter s 2) s)

/-- `jsm` (45 R440). -/
def execJsm (rel : Bool) (imm : Imm) (s : State) : Host.Outcome State Fault Refusal := finish s (jsmState rel imm s)

/-- `callsm` (45 R441). -/
def execCallsm (rel v : Bool) (imm : Imm) (s : State) : Host.Outcome State Fault Refusal :=
  finish s (callsmState rel v imm s)

/-- `retrsm` (45 R442). -/
def execRetrsm (s : State) : Host.Outcome State Fault Refusal := finish s (retrsmState s)

end Sys2Proof.Machine
end

