-- ==== Sys2Proof/Machine/Moves.lean ====
section
/-!
DEFINITION. mov, lea and their gpr forms, nop, movsx, bswap (41 R280 to R290, R314 to R316).
-/

namespace Sys2Proof.Machine

/-- `mov` (41 R280). -/
def movState (a b : Operand) (s : State) : Except Trap State := do
  let next := nextIp s [a, b]
  let d := bitsOf a
  require (movShape a b) (.exc .und)
  opWriteCheck s a
  opReadCheck s b
  let v ← loadOp s next b
  let dst ← destOf s next a
  let r := trunc d v
  destCheck s dst r
  .ok { putDest s dst r with flags := setZN s.flags r d, ip := next }

/-- `lea` (41 R281): the address only, no memory check, no flags. -/
def leaState (a b : Operand) (s : State) : Except Trap State := do
  let next := nextIp s [a, b]
  require (leaShape a b) (.exc .und)
  opWriteCheck s a
  let dst ← destOf s next a
  let v := addrOf s next b
  destCheck s dst v
  .ok { putDest s dst v with ip := next }

/-- `mov`*r* to a gpr (41 R282). -/
def movrToGprState (g : BitVec 4) (a : Operand) (s : State) : Except Trap State := do
  let next := nextIp s [a]
  let d := impliedBits a
  opReadCheck s a
  let v ← loadOp s next a
  let r := trunc d v
  .ok { setGpr s g r with flags := setZN s.flags r d, ip := next }

/-- `mov`*r* from a gpr (41 R283). -/
def movrFromGprState (g : BitVec 4) (a : Operand) (s : State) : Except Trap State := do
  let next := nextIp s [a]
  let d := bitsOf a
  require (isWritable a) (.exc .und)
  opWriteCheck s a
  let dst ← destOf s next a
  let r := trunc d (getGpr s g)
  destCheck s dst r
  .ok { putDest s dst r with flags := setZN s.flags r d, ip := next }

/-- `lea`*r* (41 R284). -/
def learState (g : BitVec 4) (a : Operand) (s : State) : Except Trap State := do
  let next := nextIp s [a]
  require (isMem a) (.exc .und)
  .ok { setGpr s g (addrOf s next a) with ip := next }

/-- An instruction of `n` bytes that only advances `ip`. -/
def skip (s : State) (n : Nat) : State := { s with ip := nextAfter s n }

/-- `movsx` (41 R315): sign extension from the source's size, or truncation. -/
def movsxState (f : Bool) (a b : Operand) (s : State) : Except Trap State := do
  let next := nextIp s [a, b]
  let d := bitsOf a
  require (movsxShape a b) (.exc .und)
  opWriteCheck s a
  opReadCheck s b
  let v ← loadOp s next b
  let dst ← destOf s next a
  let r := if bitsOf b ≥ d then trunc d v else trunc d (sext (bitsOf b) v)
  destCheck s dst r
  .ok { putDest s dst r with flags := if f then s.flags else setZN s.flags r d, ip := next }

/-- The low `n` bytes of a value in reverse order (41 R316). -/
def reverseBytes (n : Nat) (v : Word) : Word := BitVec.ofNat 64 (valueLE (bytesLE n v.toNat).reverse)

/-- `bswap` (41 R316). -/
def bswapState (f : Bool) (a b : Operand) (s : State) : Except Trap State := do
  let next := nextIp s [a, b]
  let d := bitsOf a
  require (bswapShape a b) (.exc .und)
  opWriteCheck s a
  opReadCheck s b
  let v ← loadOp s next b
  let dst ← destOf s next a
  let r := reverseBytes (d / 8) v
  destCheck s dst r
  .ok { putDest s dst r with flags := if f then s.flags else setZN s.flags r d, ip := next }

/-- `mov` (41 R280). -/
def execMov (a b : Operand) (s : State) : Host.Outcome State Fault Refusal := finish s (movState a b s)

/-- `lea` (41 R281). -/
def execLea (a b : Operand) (s : State) : Host.Outcome State Fault Refusal := finish s (leaState a b s)

/-- `mov`*r* to a gpr (41 R282). -/
def execMovrToGpr (r : BitVec 4) (a : Operand) (s : State) : Host.Outcome State Fault Refusal :=
  finish s (movrToGprState r a s)

/-- `mov`*r* from a gpr (41 R283). -/
def execMovrFromGpr (r : BitVec 4) (a : Operand) (s : State) : Host.Outcome State Fault Refusal :=
  finish s (movrFromGprState r a s)

/-- `lea`*r* (41 R284). -/
def execLear (r : BitVec 4) (a : Operand) (s : State) : Host.Outcome State Fault Refusal := finish s (learState r a s)

/-- `nop` without operands (41 R290). -/
def execNop0 (s : State) : Host.Outcome State Fault Refusal := finish s (.ok (skip s 2))

/-- `nop` with one operand, which is decoded and not accessed (41 R290). -/
def execNop1 (a : Operand) (s : State) : Host.Outcome State Fault Refusal :=
  finish s (.ok (skip s (2 + operandLength a)))

/-- `nop` with two operands (41 R290). -/
def execNop2 (a b : Operand) (s : State) : Host.Outcome State Fault Refusal :=
  finish s (.ok (skip s (2 + operandLength a + operandLength b)))

/-- `nop` with three operands (41 R290). -/
def execNop3 (a b c : Operand) (s : State) : Host.Outcome State Fault Refusal :=
  finish s (.ok (skip s (2 + operandLength a + operandLength b + operandLength c)))

/-- `movsx` (41 R315). -/
def execMovsx (f : Bool) (a b : Operand) (s : State) : Host.Outcome State Fault Refusal := finish s (movsxState f a b s)

/-- `bswap` (41 R316). -/
def execBswap (f : Bool) (a b : Operand) (s : State) : Host.Outcome State Fault Refusal := finish s (bswapState f a b s)

end Sys2Proof.Machine
end

