-- ==== Sys2Proof/Machine/MulDiv.lean ====
section
/-!
DEFINITION. mul, div, imul, idiv (40 R250 to R254): fixed registers r0, r1, r3, computed on integers and narrowed at the end.
-/

namespace Sys2Proof.Machine

/-- The `d`-bit two's complement integer of a register value (00 R12). -/
def signedOf (d : Nat) (v : Word) : Int := (v.setWidth d).toInt

/-- Does an integer fit `d` signed bits? -/
def fitsSigned (d : Nat) (i : Int) : Bool := decide (-(2 ^ (d - 1) : Int) ≤ i) && decide (i < (2 ^ (d - 1) : Int))

/-- An integer's low `d` bits, zero-extended. -/
def narrow (d : Nat) (i : Int) : Word := trunc d (BitVec.ofInt 64 i)

/-- Store the two `d`-bit results in r0 and r3 and the flags, and advance (40 R250). -/
def mulDivResult (s : State) (d : Nat) (f : Bool) (r0 r3 : Word) (c v : Bool) : State :=
  let flags := if f then s.flags else setZN (setCV s.flags c v) r0 d
  { setGpr (setGpr s 0 r0) 3 r3 with flags := flags, ip := nextAfter s 2 }

/-- `mul` (40 R251): C says that the high half is not 0, V is a free value. -/
def mulState (ss : Size) (f : Bool) (s : State) : State :=
  let d := sizeBits ss
  let p := (trunc d (getGpr s 0)).toNat * (trunc d (getGpr s 3)).toNat
  mulDivResult s d f (BitVec.ofNat 64 (p % 2 ^ d)) (BitVec.ofNat 64 (p / 2 ^ d)) (p / 2 ^ d != 0) (Config.freeV s.freeCtr)

/-- `imul` (40 R253): V says that the product does not fit, C is a free value. -/
def imulState (ss : Size) (f : Bool) (s : State) : State :=
  let d := sizeBits ss
  let p := signedOf d (getGpr s 0) * signedOf d (getGpr s 3)
  mulDivResult s d f (narrow d p) (narrow d (p / (2 ^ d : Int))) (Config.freeC s.freeCtr) (!fitsSigned d p)

/-- `div` (40 R252): the dividend is 2D bits wide with `w`; a quotient that does not fit is truncated with C set. -/
def divState (ss : Size) (w f : Bool) (s : State) : Except Trap State := do
  let d := sizeBits ss
  let divisor := (trunc d (getGpr s 3)).toNat
  require (divisor != 0) (.exc .div)
  let low := (trunc d (getGpr s 0)).toNat
  let n := if w then (trunc d (getGpr s 1)).toNat * 2 ^ d + low else low
  let q := n / divisor
  .ok (mulDivResult s d f (BitVec.ofNat 64 (q % 2 ^ d)) (BitVec.ofNat 64 (n % divisor)) (decide (2 ^ d ≤ q))
    (Config.freeV s.freeCtr))

/-- The dividend of `idiv`: D bits, or with `w` 2D bits with the high half in r1 (40 R254). -/
def idivDividend (s : State) (d : Nat) (w : Bool) : Int :=
  if w then signedOf d (getGpr s 1) * (2 ^ d : Int) + ((trunc d (getGpr s 0)).toNat : Int) else signedOf d (getGpr s 0)

/-- `idiv` (40 R254): truncation toward zero, the remainder has the dividend's sign; V says that the quotient does not fit. -/
def idivState (ss : Size) (w f : Bool) (s : State) : Except Trap State := do
  let d := sizeBits ss
  let divisor := signedOf d (getGpr s 3)
  require (divisor != 0) (.exc .div)
  let n := idivDividend s d w
  let q := n.tdiv divisor
  .ok (mulDivResult s d f (narrow d q) (narrow d (n.tmod divisor)) (Config.freeC s.freeCtr) (!fitsSigned d q))

/-- `mul` (40 R251). -/
def execMul (ss : Size) (f : Bool) (s : State) : Host.Outcome State Fault Refusal := finish s (.ok (mulState ss f s))

/-- `div` (40 R252). -/
def execDiv (ss : Size) (w f : Bool) (s : State) : Host.Outcome State Fault Refusal := finish s (divState ss w f s)

/-- `imul` (40 R253). -/
def execImul (ss : Size) (f : Bool) (s : State) : Host.Outcome State Fault Refusal := finish s (.ok (imulState ss f s))

/-- `idiv` (40 R254). -/
def execIdiv (ss : Size) (w f : Bool) (s : State) : Host.Outcome State Fault Refusal := finish s (idivState ss w f s)

end Sys2Proof.Machine
end

