-- ==== Sys2Proof/Machine/Shifts.lean ====
section
/-!
DEFINITION. The integer shifts and rotates and their gpr forms (43 R350 to R359), from the closed forms of the rules.
-/

namespace Sys2Proof.Machine

/-- The seven shift operations (43 R352 to R358). -/
inductive ShiftOp where
  | lsh
  | rsh
  | arsh
  | lshc
  | rshc
  | lrot
  | rrot
deriving DecidableEq, Repr

/-- `k` copies of a bit. -/
def fill (k : Nat) (b : Bool) : Word := if b then BitVec.ofNat 64 (2 ^ k - 1) else 0

/-- What a shift leaves: the result and the last bit moved out (43 R351). -/
structure Shifted where
  value : Word
  out : Bool
deriving DecidableEq, Repr

/-- The closed form for a count `c` of at least 1; `c0` is the carry before the instruction (43 R352 to R358). -/
def ShiftOp.closedForm (op : ShiftOp) (d : Nat) (a : Word) (c : Nat) (c0 : Bool) : Shifted :=
  match op with
  | .lsh => if c ≤ d then ⟨trunc d (a <<< c), a.getLsbD (d - c)⟩ else ⟨0, false⟩
  | .rsh => if c ≤ d then ⟨a >>> c, a.getLsbD (c - 1)⟩ else ⟨0, false⟩
  | .arsh =>
    if c < d then ⟨trunc d ((sext d a).sshiftRight c), a.getLsbD (c - 1)⟩ else ⟨fill d (msb d a), msb d a⟩
  | .lshc => if c ≤ d then ⟨trunc d (a <<< c) ||| fill c c0, a.getLsbD (d - c)⟩ else ⟨fill d c0, c0⟩
  | .rshc => if c ≤ d then ⟨(a >>> c) ||| (fill c c0 <<< (d - c)), a.getLsbD (c - 1)⟩ else ⟨fill d c0, c0⟩
  | .lrot =>
    let r := trunc d (a <<< (c % d)) ||| (a >>> (d - c % d))
    ⟨r, r.getLsbD 0⟩
  | .rrot =>
    let r := (a >>> (c % d)) ||| trunc d (a <<< (d - c % d))
    ⟨r, r.getLsbD (d - 1)⟩

/-- A shift of the `d`-bit value `a` by `c`: a count of 0 leaves the value and moves nothing out (43 R351). -/
def ShiftOp.apply (op : ShiftOp) (d : Nat) (a : Word) (c : Nat) (c0 : Bool) : Shifted :=
  if c = 0 then ⟨a, false⟩ else op.closedForm d a c c0

/-- The flags after a shift: C is the last bit out, Z and N the result's, V a free value (43 R351). -/
def shiftFlags (s : State) (d : Nat) (r : Shifted) : Word :=
  setZN (setCV s.flags r.out (Config.freeV s.freeCtr)) r.value d

/-- A two-operand shift (43 R350, R351). -/
def shiftTwo (op : ShiftOp) (l f : Bool) (a b : Operand) (s : State) : Except Trap State := do
  let next := nextIp s [a, b]
  let d := bitsOf a
  require (aluShape l a b) (.exc .und)
  opUpdateCheck s a
  opReadCheck s b
  let x ← loadOp s next a
  let c ← loadOp s next b
  let dst ← destOf s next a
  let r := op.apply d x c.toNat (flagC s.flags)
  destCheck s dst r.value
  .ok { putDest s dst r.value with flags := if f then s.flags else shiftFlags s d r, ip := next }

/-- The gpr form: the explicit operand is the count (43 R359). -/
def shiftGpr (op : ShiftOp) (g : BitVec 4) (a : Operand) (s : State) : Except Trap State := do
  let next := nextIp s [a]
  let d := impliedBits a
  opReadCheck s a
  let c ← loadOp s next a
  let r := op.apply d (trunc d (getGpr s g)) c.toNat (flagC s.flags)
  .ok { setGpr s g r.value with flags := shiftFlags s d r, ip := next }

/-- `lsh` (43 R352). -/
def execLsh (l f : Bool) (a b : Operand) (s : State) : Host.Outcome State Fault Refusal := finish s (shiftTwo .lsh l f a b s)

/-- `rsh` (43 R353). -/
def execRsh (l f : Bool) (a b : Operand) (s : State) : Host.Outcome State Fault Refusal := finish s (shiftTwo .rsh l f a b s)

/-- `arsh` (43 R354). -/
def execArsh (l f : Bool) (a b : Operand) (s : State) : Host.Outcome State Fault Refusal := finish s (shiftTwo .arsh l f a b s)

/-- `lshc` (43 R355). -/
def execLshc (l f : Bool) (a b : Operand) (s : State) : Host.Outcome State Fault Refusal := finish s (shiftTwo .lshc l f a b s)

/-- `rshc` (43 R356). -/
def execRshc (l f : Bool) (a b : Operand) (s : State) : Host.Outcome State Fault Refusal := finish s (shiftTwo .rshc l f a b s)

/-- `lrot` (43 R357). -/
def execLrot (l f : Bool) (a b : Operand) (s : State) : Host.Outcome State Fault Refusal := finish s (shiftTwo .lrot l f a b s)

/-- `rrot` (43 R358). -/
def execRrot (l f : Bool) (a b : Operand) (s : State) : Host.Outcome State Fault Refusal := finish s (shiftTwo .rrot l f a b s)

/-- `lsh`*r* (43 R359). -/
def execLshr (r : BitVec 4) (a : Operand) (s : State) : Host.Outcome State Fault Refusal := finish s (shiftGpr .lsh r a s)

/-- `rsh`*r* (43 R359). -/
def execRshr (r : BitVec 4) (a : Operand) (s : State) : Host.Outcome State Fault Refusal := finish s (shiftGpr .rsh r a s)

/-- `arsh`*r* (43 R359). -/
def execArshr (r : BitVec 4) (a : Operand) (s : State) : Host.Outcome State Fault Refusal := finish s (shiftGpr .arsh r a s)

/-- `lshc`*r* (43 R359). -/
def execLshcr (r : BitVec 4) (a : Operand) (s : State) : Host.Outcome State Fault Refusal := finish s (shiftGpr .lshc r a s)

/-- `rshc`*r* (43 R359). -/
def execRshcr (r : BitVec 4) (a : Operand) (s : State) : Host.Outcome State Fault Refusal := finish s (shiftGpr .rshc r a s)

/-- `lrot`*r* (43 R359). -/
def execLrotr (r : BitVec 4) (a : Operand) (s : State) : Host.Outcome State Fault Refusal := finish s (shiftGpr .lrot r a s)

/-- `rrot`*r* (43 R359). -/
def execRrotr (r : BitVec 4) (a : Operand) (s : State) : Host.Outcome State Fault Refusal := finish s (shiftGpr .rrot r a s)

end Sys2Proof.Machine
end

