-- ==== Sys2Proof/Machine/Supervisor.lean ====
section
/-!
DEFINITION. The supervisor instructions but in and out (46_supervisor.md): returns, halt, cache instructions, mass register storage, and
the machine-specific opcodes (46 R475, log 23). Every one checks the mode first (46 R470).
-/

namespace Sys2Proof.Machine

/-- The mode check of a supervisor instruction (46 R470). -/
def supervisorOnly (s : State) : Except Trap Unit := require (!s.xm) (.exc .prot)

/-- The fast form of `scret` (46 R471). -/
def scretFast (s : State) : Except Trap State := do
  let m := getGpr s 13
  let t := getGpr s 14
  modeCheck s m
  checkTarget s (modeXM (writtenMode s m)) t
  .ok (branchTo (setGpr { s with mode := writtenMode s m } 7 (getGpr s 12)) t)

/-- `scret`: the form follows sccr.fc (46 R471). -/
def scretState (s : State) : Except Trap State := do
  supervisorOnly s
  if s.sccr.getLsbD 1 then scretFast s else returnFrame s

/-- `reti` (46 R472). -/
def retiState (s : State) : Except Trap State := do
  supervisorOnly s
  returnFrame s

/-- `halt` (46 R480). -/
def haltState (s : State) : Except Trap State := do
  supervisorOnly s
  .ok { s with halted := true, ip := nextAfter s 2 }

/-- `pcfl` (46 R485). -/
def pcflState (s : State) : Except Trap State := do
  supervisorOnly s
  require (s.page.extractLsb' 0 12 == 0#12) (badPageFault s)
  .ok { flushPages s with ip := nextAfter s 2 }

/-- `flall` (46 R486). -/
def flallState (s : State) : Except Trap State := do
  supervisorOnly s
  .ok { syncCode (flushPages s) with ip := nextAfter s 2 }

/-- The range test of `dflush` and `iflush`; the kind it reports is a free value (46 R484, log 26). -/
def flushRangeCheck (s : State) (a : Word) : Except Trap Unit :=
  if pagingOn s.cr0 then
    require (virtInRange (ptlOf s.cr0) a) (pageFault s.xm a 0 0 (Config.freeKind s.freeCtr) 0x0200)
  else require (physInRange s.cfg a) (pageFault s.xm a 0 0 (Config.freeKind s.freeCtr) 0x0600)

/-- `dflush` (46 R487): no effect that a program can observe (20 R124). -/
def dflushState (a : Operand) (s : State) : Except Trap State := do
  let next := nextIp s [a]
  supervisorOnly s
  require (isMem a) (.exc .und)
  flushRangeCheck s (addrOf s next a)
  .ok { s with ip := next }

/-- What fetches may see at one physical address becomes what memory holds there. -/
def refreshByte (s : State) (p : Nat) : State := { s with imem := s.imem.write p (s.mem.read p) }

/-- The instruction cache is flushed for the aligned 2-byte word that `a` names (46 R488, 93 U22), found with the page tables as they
are in memory; an address without a translation has no such word (log 19). -/
def flushCode (s : State) (a : Word) : State :=
  match translate (flushPages s) false .read a with
  | .ok p => refreshByte (refreshByte s (p / 2 * 2)) (p / 2 * 2 + 1)
  | .error _ => s

/-- `iflush` (46 R488). -/
def iflushState (a : Operand) (s : State) : Except Trap State := do
  let next := nextIp s [a]
  supervisorOnly s
  require (isMem a) (.exc .und)
  flushRangeCheck s (addrOf s next a)
  .ok { flushCode s (addrOf s next a) with ip := next }

/-- The register whose value slot `i` of the 512-byte image holds (46 R501). -/
def slotRegister (i : Nat) : Nat := if i < 32 then i else i + 96

/-- The 512-byte register image (46 R499, R501). -/
def fullImage (s : State) (next : Word) : List Byte := imageOf ((List.range 64).map fun i => readReg s next (slotRegister i))

/-- `storegf` (46 R499). -/
def storegfState (a : Operand) (s : State) : Except Trap State := do
  let next := nextIp s [a]
  supervisorOnly s
  require (isMem a) (.exc .und)
  let ps ← translateAll s s.xm .write (addrOf s next a) 512
  .ok { s with mem := s.mem.writeBytes ps (fullImage s next), ip := next }

/-- Is slot `i` that of a Reserved register (46 R500, R501)? -/
def slotReserved (i : Nat) : Bool := regClass (slotRegister i) == .reserved

/-- The machine-specific registers after `rstregf`, as `MsrBehaviour` allows (46 R500). -/
def restoredMsrs (s : State) (image : List Byte) : Vector Word 7 :=
  match s.cfg.msrBehaviour with
  | .refuse => s.msr
  | .storage => Vector.ofFn fun k => slotOf image (52 + k.val)
  | .machine => (List.finRange 7).foldl (fun m k => msrAfter s m k (slotOf image (52 + k.val))) s.msr

/-- The registers after `rstregf`; CPUInfo slots are ignored, the machine-specific registers follow `MsrBehaviour` (46 R500). -/
def restoreFull (s : State) (image : List Byte) : State :=
  { loadGprs s image with
    flags := writtenFlags s (slotOf image 17)
    mode := writtenMode s (slotOf image 18)
    cr0 := slotOf image 32
    page := slotOf image 33
    flprotect := slotOf image 34
    scdp := slotOf image 35
    scsp := slotOf image 36
    sccr := slotOf image 37
    itabp := slotOf image 38
    ciread := slotOf image 39
    fcode := slotOf image 48
    pfcharp := slotOf image 49
    msr := restoredMsrs s image }

/-- `rstregf` (46 R500): the target is checked under the restored `mode`, `cr0` and `page` (log 12); a restore that maps the executing
page elsewhere is undefined (20 R151, log 18). -/
def rstregfState (a : Operand) (s : State) : Except Trap State := do
  let next := nextIp s [a]
  supervisorOnly s
  require (isMem a) (.exc .und)
  let image ← memBytes s (addrOf s next a) 512
  require ((List.range 64).all fun i => !slotReserved i || slotOf image i == 0) (.exc .prot)
  cr0Check s (slotOf image 32)
  sccrCheck s (slotOf image 37)
  modeCheck s (slotOf image 18)
  let u := restoreFull s image
  checkTarget u u.xm (slotOf image 16)
  require (keepsOwnMapping s u next) (.stop .mappingChanged)
  .ok (branchTo u (slotOf image 16))

/-- `scret` (46 R471). -/
def execScret (s : State) : Host.Outcome State Fault Refusal := finish s (scretState s)

/-- `reti` (46 R472). -/
def execReti (s : State) : Host.Outcome State Fault Refusal := finish s (retiState s)

/-- Register writes of a machine-specific instruction: each passes the checks of a written operand (30 R206, 10 R69). -/
def machineRegisters (s : State) : List (BitVec 8 × Word) → Except Trap State
  | [] => .ok s
  | (n, v) :: l => do
    regWriteCheck s n.toNat
    regValueCheck s n.toNat v
    machineRegisters (putReg s n.toNat v) l

/-- Byte stores of a machine-specific instruction, at physical addresses; where there is no memory nothing is stored. -/
def machineStores (cfg : Params) (m : Memory) : List (Word × Byte) → Memory
  | [] => m
  | (a, b) :: l => machineStores cfg (if physInRange cfg a && present cfg a then m.write a.toNat b else m) l

/-- What a machine-specific instruction that ends before `next` leaves, from its effect as data (46 R475, log 23). -/
def machineApply (s : State) (next : Word) (e : MachineEffect) : Except Trap State := do
  let u ← machineRegisters s e.registers
  let u := { u with flags := writtenFlags u e.flags, mem := machineStores u.cfg u.mem e.stores, halted := e.halts }
  let u := if e.flushes then syncCode (flushPages u) else u
  match e.target with
  | none => .ok { u with ip := next }
  | some t => do
    checkTarget u u.xm t
    .ok (branchTo u t)

/-- A machine-specific opcode (46 R475): UND in both modes where the machine does not provide it, else PROT in program mode; in supervisor
mode it has the effect that the parameter `MachInstr` gives it, or raises the exception it gives (log 23). -/
def machineState (lo : BitVec 5) (h : BitVec 4) (s : State) : Except Trap State :=
  match machineOpcode s.cfg lo with
  | none => .error (.exc .und)
  | some m => do
    supervisorOnly s
    match Config.machineEffect lo h s with
    | .ok e => machineApply s (nextAfter s (2 + 2 * m.units.val)) e
    | .error x => .error (.exc x)

/-- A machine-specific opcode (46 R475). -/
def execMachineSpecific (lo : BitVec 5) (h : BitVec 4) (s : State) : Host.Outcome State Fault Refusal :=
  finish s (machineState lo h s)

/-- `halt` (46 R480). -/
def execHalt (s : State) : Host.Outcome State Fault Refusal := finish s (haltState s)

/-- `pcfl` (46 R485). -/
def execPcfl (s : State) : Host.Outcome State Fault Refusal := finish s (pcflState s)

/-- `flall` (46 R486). -/
def execFlall (s : State) : Host.Outcome State Fault Refusal := finish s (flallState s)

/-- `dflush` (46 R487). -/
def execDflush (a : Operand) (s : State) : Host.Outcome State Fault Refusal := finish s (dflushState a s)

/-- `iflush` (46 R488). -/
def execIflush (a : Operand) (s : State) : Host.Outcome State Fault Refusal := finish s (iflushState a s)

/-- `storegf` (46 R499). -/
def execStoregf (a : Operand) (s : State) : Host.Outcome State Fault Refusal := finish s (storegfState a s)

/-- `rstregf` (46 R500). -/
def execRstregf (a : Operand) (s : State) : Host.Outcome State Fault Refusal := finish s (rstregfState a s)

end Sys2Proof.Machine
end

