-- ==== Sys2Proof/Machine/Unary.lean ====
section
/-!
DEFINITION. bnot, neg and their gpr forms (43 R362 to R366), cmp, test and their gpr forms (43 R379 to R383).
-/

namespace Sys2Proof.Machine

/-- The unary operations (43 R363, R364). -/
inductive UnaryOp where
  | bnot
  | neg
deriving DecidableEq, Repr

/-- The result before truncation (43 R363, R364). -/
def UnaryOp.apply : UnaryOp → Word → Word
  | .bnot, a => ~~~a
  | .neg, a => 0 - a

/-- `bnot` and `neg` (43 R362): Z, N and P unless `f`. -/
def unaryState (op : UnaryOp) (l f : Bool) (a : Operand) (s : State) : Except Trap State := do
  let next := nextIp s [a]
  let d := bitsOf a
  require (unaryShape l a) (.exc .und)
  opUpdateCheck s a
  let x ← loadOp s next a
  let dst ← destOf s next a
  let r := trunc d (op.apply x)
  destCheck s dst r
  .ok { putDest s dst r with flags := if f then s.flags else setZNP s.flags r d, ip := next }

/-- The gpr forms: 64 bits (43 R365, R366). -/
def unaryGpr (op : UnaryOp) (g : BitVec 4) (s : State) : State :=
  let r := op.apply (getGpr s g)
  { setGpr s g r with flags := setZNP s.flags r 64, ip := nextAfter s 2 }

/-- `cmp` at the larger of the two sizes (43 R380). -/
def cmpState (a b : Operand) (s : State) : Except Trap State := do
  let next := nextIp s [a, b]
  require (cmpShape a b) (.exc .und)
  opReadCheck s a
  opReadCheck s b
  let x ← loadOp s next a
  let y ← loadOp s next b
  .ok { s with flags := compareFlags s.flags (max (bitsOf a) (bitsOf b)) x y, ip := next }

/-- `test` at the larger of the two sizes (43 R381): Z and N only. -/
def testState (a b : Operand) (s : State) : Except Trap State := do
  let next := nextIp s [a, b]
  require (cmpShape a b) (.exc .und)
  opReadCheck s a
  opReadCheck s b
  let x ← loadOp s next a
  let y ← loadOp s next b
  .ok { s with flags := setZN s.flags (x &&& y) (max (bitsOf a) (bitsOf b)), ip := next }

/-- `cmp`*r*: the gpr is the first operand (43 R382). -/
def cmprState (g : BitVec 4) (a : Operand) (s : State) : Except Trap State := do
  let next := nextIp s [a]
  let d := impliedBits a
  opReadCheck s a
  let y ← loadOp s next a
  .ok { s with flags := compareFlags s.flags d (trunc d (getGpr s g)) y, ip := next }

/-- `test`*r*: the gpr is the first operand (43 R383). -/
def testrState (g : BitVec 4) (a : Operand) (s : State) : Except Trap State := do
  let next := nextIp s [a]
  let d := impliedBits a
  opReadCheck s a
  let y ← loadOp s next a
  .ok { s with flags := setZN s.flags (trunc d (getGpr s g) &&& y) d, ip := next }

/-- `bnot` (43 R363). -/
def execBnot (l f : Bool) (a : Operand) (s : State) : Host.Outcome State Fault Refusal := finish s (unaryState .bnot l f a s)

/-- `neg` (43 R364). -/
def execNeg (l f : Bool) (a : Operand) (s : State) : Host.Outcome State Fault Refusal := finish s (unaryState .neg l f a s)

/-- `bnot`*r* (43 R365). -/
def execBnotr (r : BitVec 4) (s : State) : Host.Outcome State Fault Refusal := finish s (.ok (unaryGpr .bnot r s))

/-- `neg`*r* (43 R366). -/
def execNegr (r : BitVec 4) (s : State) : Host.Outcome State Fault Refusal := finish s (.ok (unaryGpr .neg r s))

/-- `cmp` (43 R380). -/
def execCmp (a b : Operand) (s : State) : Host.Outcome State Fault Refusal := finish s (cmpState a b s)

/-- `test` (43 R381). -/
def execTest (a b : Operand) (s : State) : Host.Outcome State Fault Refusal := finish s (testState a b s)

/-- `cmp`*r* (43 R382). -/
def execCmpr (r : BitVec 4) (a : Operand) (s : State) : Host.Outcome State Fault Refusal := finish s (cmprState r a s)

/-- `test`*r* (43 R383). -/
def execTestr (r : BitVec 4) (a : Operand) (s : State) : Host.Outcome State Fault Refusal := finish s (testrState r a s)

end Sys2Proof.Machine
end

