-- ==== Sys2Proof/Machine/Dispatch.lean ====
section
/-!
DEFINITION. The dispatch: one arm per constructor of Instr, each one direct call of the instruction's meaning.
-/

namespace Sys2Proof.Machine

def exec (i : Instr) (s : State) : Host.Outcome State Fault Refusal :=
  match i with
  | .und000 _ => Sys2Proof.Machine.execUnd000 s
  | .undFff _ => Sys2Proof.Machine.execUndFff s
  | .add l f a b => Sys2Proof.Machine.execAdd l f a b s
  | .sub l f a b => Sys2Proof.Machine.execSub l f a b s
  | .and l f a b => Sys2Proof.Machine.execAnd l f a b s
  | .or l f a b => Sys2Proof.Machine.execOr l f a b s
  | .xor l f a b => Sys2Proof.Machine.execXor l f a b s
  | .mul ss f => Sys2Proof.Machine.execMul ss f s
  | .div ss w f => Sys2Proof.Machine.execDiv ss w f s
  | .imul ss f => Sys2Proof.Machine.execImul ss f s
  | .idiv ss w f => Sys2Proof.Machine.execIdiv ss w f s
  | .mov a b => Sys2Proof.Machine.execMov a b s
  | .lea a b => Sys2Proof.Machine.execLea a b s
  | .movrToGpr r a => Sys2Proof.Machine.execMovrToGpr r a s
  | .movrFromGpr r a => Sys2Proof.Machine.execMovrFromGpr r a s
  | .lear r a => Sys2Proof.Machine.execLear r a s
  | .nop0 => Sys2Proof.Machine.execNop0 s
  | .nop1 a => Sys2Proof.Machine.execNop1 a s
  | .nop2 a b => Sys2Proof.Machine.execNop2 a b s
  | .nop3 a b c => Sys2Proof.Machine.execNop3 a b c s
  | .push a => Sys2Proof.Machine.execPush a s
  | .pop a => Sys2Proof.Machine.execPop a s
  | .pushr r => Sys2Proof.Machine.execPushr r s
  | .popr r => Sys2Proof.Machine.execPopr r s
  | .stogpr a => Sys2Proof.Machine.execStogpr a s
  | .stoar a => Sys2Proof.Machine.execStoar a s
  | .rstogpr a => Sys2Proof.Machine.execRstogpr a s
  | .rstoar a => Sys2Proof.Machine.execRstoar a s
  | .pushgpr => Sys2Proof.Machine.execPushgpr s
  | .pushar => Sys2Proof.Machine.execPushar s
  | .popgpr => Sys2Proof.Machine.execPopgpr s
  | .popar => Sys2Proof.Machine.execPopar s
  | .movsx f a b => Sys2Proof.Machine.execMovsx f a b s
  | .bswap f a b => Sys2Proof.Machine.execBswap f a b s
  | .repbi cc fo => Sys2Proof.Machine.execRepbi cc fo s
  | .repbc cc fo => Sys2Proof.Machine.execRepbc cc fo s
  | .bcpy ss => Sys2Proof.Machine.execBcpy ss s
  | .bsto ss => Sys2Proof.Machine.execBsto ss s
  | .bsca ss => Sys2Proof.Machine.execBsca ss s
  | .bcmp ss => Sys2Proof.Machine.execBcmp ss s
  | .btst ss => Sys2Proof.Machine.execBtst ss s
  | .lsh l f a b => Sys2Proof.Machine.execLsh l f a b s
  | .rsh l f a b => Sys2Proof.Machine.execRsh l f a b s
  | .arsh l f a b => Sys2Proof.Machine.execArsh l f a b s
  | .lshc l f a b => Sys2Proof.Machine.execLshc l f a b s
  | .rshc l f a b => Sys2Proof.Machine.execRshc l f a b s
  | .lrot l f a b => Sys2Proof.Machine.execLrot l f a b s
  | .rrot l f a b => Sys2Proof.Machine.execRrot l f a b s
  | .lshr r a => Sys2Proof.Machine.execLshr r a s
  | .rshr r a => Sys2Proof.Machine.execRshr r a s
  | .arshr r a => Sys2Proof.Machine.execArshr r a s
  | .lshcr r a => Sys2Proof.Machine.execLshcr r a s
  | .rshcr r a => Sys2Proof.Machine.execRshcr r a s
  | .lrotr r a => Sys2Proof.Machine.execLrotr r a s
  | .rrotr r a => Sys2Proof.Machine.execRrotr r a s
  | .addrGprDst r a => Sys2Proof.Machine.execAddrGprDst r a s
  | .subrGprDst r a => Sys2Proof.Machine.execSubrGprDst r a s
  | .andrGprDst r a => Sys2Proof.Machine.execAndrGprDst r a s
  | .orrGprDst r a => Sys2Proof.Machine.execOrrGprDst r a s
  | .xorrGprDst r a => Sys2Proof.Machine.execXorrGprDst r a s
  | .bnot l f a => Sys2Proof.Machine.execBnot l f a s
  | .neg l f a => Sys2Proof.Machine.execNeg l f a s
  | .addrGprSrc r a => Sys2Proof.Machine.execAddrGprSrc r a s
  | .subrGprSrc r a => Sys2Proof.Machine.execSubrGprSrc r a s
  | .andrGprSrc r a => Sys2Proof.Machine.execAndrGprSrc r a s
  | .orrGprSrc r a => Sys2Proof.Machine.execOrrGprSrc r a s
  | .xorrGprSrc r a => Sys2Proof.Machine.execXorrGprSrc r a s
  | .bnotr r => Sys2Proof.Machine.execBnotr r s
  | .negr r => Sys2Proof.Machine.execNegr r s
  | .cmp a b => Sys2Proof.Machine.execCmp a b s
  | .test a b => Sys2Proof.Machine.execTest a b s
  | .cmpr r a => Sys2Proof.Machine.execCmpr r a s
  | .testr r a => Sys2Proof.Machine.execTestr r a s
  | .xchg a b => Sys2Proof.Machine.execXchg a b s
  | .cmpxchg a b c => Sys2Proof.Machine.execCmpxchg a b c s
  | .wcmpxchg a b c => Sys2Proof.Machine.execWcmpxchg a b c s
  | .fence => Sys2Proof.Machine.execFence s
  | .jp16 rel weight imm => Sys2Proof.Machine.execJp16 rel weight imm s
  | .jc16 rel weight imm => Sys2Proof.Machine.execJc16 rel weight imm s
  | .jv16 rel weight imm => Sys2Proof.Machine.execJv16 rel weight imm s
  | .jz16 rel weight imm => Sys2Proof.Machine.execJz16 rel weight imm s
  | .jlt16 rel weight imm => Sys2Proof.Machine.execJlt16 rel weight imm s
  | .jle16 rel weight imm => Sys2Proof.Machine.execJle16 rel weight imm s
  | .jbe16 rel weight imm => Sys2Proof.Machine.execJbe16 rel weight imm s
  | .jmi16 rel weight imm => Sys2Proof.Machine.execJmi16 rel weight imm s
  | .jpl16 rel weight imm => Sys2Proof.Machine.execJpl16 rel weight imm s
  | .ja16 rel weight imm => Sys2Proof.Machine.execJa16 rel weight imm s
  | .jgt16 rel weight imm => Sys2Proof.Machine.execJgt16 rel weight imm s
  | .jge16 rel weight imm => Sys2Proof.Machine.execJge16 rel weight imm s
  | .jnz16 rel weight imm => Sys2Proof.Machine.execJnz16 rel weight imm s
  | .jnv16 rel weight imm => Sys2Proof.Machine.execJnv16 rel weight imm s
  | .jnc16 rel weight imm => Sys2Proof.Machine.execJnc16 rel weight imm s
  | .jnp16 rel weight imm => Sys2Proof.Machine.execJnp16 rel weight imm s
  | .jp32 rel weight imm => Sys2Proof.Machine.execJp32 rel weight imm s
  | .jc32 rel weight imm => Sys2Proof.Machine.execJc32 rel weight imm s
  | .jv32 rel weight imm => Sys2Proof.Machine.execJv32 rel weight imm s
  | .jz32 rel weight imm => Sys2Proof.Machine.execJz32 rel weight imm s
  | .jlt32 rel weight imm => Sys2Proof.Machine.execJlt32 rel weight imm s
  | .jle32 rel weight imm => Sys2Proof.Machine.execJle32 rel weight imm s
  | .jbe32 rel weight imm => Sys2Proof.Machine.execJbe32 rel weight imm s
  | .jmi32 rel weight imm => Sys2Proof.Machine.execJmi32 rel weight imm s
  | .jpl32 rel weight imm => Sys2Proof.Machine.execJpl32 rel weight imm s
  | .ja32 rel weight imm => Sys2Proof.Machine.execJa32 rel weight imm s
  | .jgt32 rel weight imm => Sys2Proof.Machine.execJgt32 rel weight imm s
  | .jge32 rel weight imm => Sys2Proof.Machine.execJge32 rel weight imm s
  | .jnz32 rel weight imm => Sys2Proof.Machine.execJnz32 rel weight imm s
  | .jnv32 rel weight imm => Sys2Proof.Machine.execJnv32 rel weight imm s
  | .jnc32 rel weight imm => Sys2Proof.Machine.execJnc32 rel weight imm s
  | .jnp32 rel weight imm => Sys2Proof.Machine.execJnp32 rel weight imm s
  | .jp64 rel weight imm => Sys2Proof.Machine.execJp64 rel weight imm s
  | .jc64 rel weight imm => Sys2Proof.Machine.execJc64 rel weight imm s
  | .jv64 rel weight imm => Sys2Proof.Machine.execJv64 rel weight imm s
  | .jz64 rel weight imm => Sys2Proof.Machine.execJz64 rel weight imm s
  | .jlt64 rel weight imm => Sys2Proof.Machine.execJlt64 rel weight imm s
  | .jle64 rel weight imm => Sys2Proof.Machine.execJle64 rel weight imm s
  | .jbe64 rel weight imm => Sys2Proof.Machine.execJbe64 rel weight imm s
  | .jmi64 rel weight imm => Sys2Proof.Machine.execJmi64 rel weight imm s
  | .jpl64 rel weight imm => Sys2Proof.Machine.execJpl64 rel weight imm s
  | .ja64 rel weight imm => Sys2Proof.Machine.execJa64 rel weight imm s
  | .jgt64 rel weight imm => Sys2Proof.Machine.execJgt64 rel weight imm s
  | .jge64 rel weight imm => Sys2Proof.Machine.execJge64 rel weight imm s
  | .jnz64 rel weight imm => Sys2Proof.Machine.execJnz64 rel weight imm s
  | .jnv64 rel weight imm => Sys2Proof.Machine.execJnv64 rel weight imm s
  | .jnc64 rel weight imm => Sys2Proof.Machine.execJnc64 rel weight imm s
  | .jnp64 rel weight imm => Sys2Proof.Machine.execJnp64 rel weight imm s
  | .jmp rel imm => Sys2Proof.Machine.execJmp rel imm s
  | .call rel imm => Sys2Proof.Machine.execCall rel imm s
  | .fcall rel imm => Sys2Proof.Machine.execFcall rel imm s
  | .ret => Sys2Proof.Machine.execRet s
  | .scall => Sys2Proof.Machine.execScall s
  | .intr k => Sys2Proof.Machine.execIntr k s
  | .ijmp rel r => Sys2Proof.Machine.execIjmp rel r s
  | .fret rel => Sys2Proof.Machine.execFret rel s
  | .ifjmp rel => Sys2Proof.Machine.execIfjmp rel s
  | .icall rel r => Sys2Proof.Machine.execIcall rel r s
  | .ifcall rel => Sys2Proof.Machine.execIfcall rel s
  | .jsm rel imm => Sys2Proof.Machine.execJsm rel imm s
  | .callsm rel v imm => Sys2Proof.Machine.execCallsm rel v imm s
  | .retrsm => Sys2Proof.Machine.execRetrsm s
  | .scret => Sys2Proof.Machine.execScret s
  | .reti => Sys2Proof.Machine.execReti s
  | .machineSpecific lo h => Sys2Proof.Machine.execMachineSpecific lo h s
  | .halt => Sys2Proof.Machine.execHalt s
  | .pcfl => Sys2Proof.Machine.execPcfl s
  | .flall => Sys2Proof.Machine.execFlall s
  | .dflush a => Sys2Proof.Machine.execDflush a s
  | .iflush a => Sys2Proof.Machine.execIflush a s
  | .inp ss => Sys2Proof.Machine.execInp ss s
  | .outp ss => Sys2Proof.Machine.execOutp ss s
  | .storegf a => Sys2Proof.Machine.execStoregf a s
  | .rstregf a => Sys2Proof.Machine.execRstregf a s

end Sys2Proof.Machine
end

