-- ==== Sys2Proof/Machine/Fetch.lean ====
section
/-!
DEFINITION. Fetching an instruction (20 R106, R120 to R122, R149, R151), what happens at an instruction boundary (60 R554), what an access
to machine-specific registers does besides (10 R68), the mapping check at the end of a step (20 R151), and the free-value counter.
-/

namespace Sys2Proof.Machine

/-! ### Fetch -/

/-- May `va` be executed: is it mapped to the physical page it was mapped to at the last taken branch (20 R151, log 18)? -/
def sameMapping (s : State) (va : Word) : Bool := keepsMapping (atBranch s) s va

/-- What a fetch sees at physical addresses: memory, or, where they differ, possibly what the instruction cache holds; the choice is one
for the whole 2-byte unit (20 R121, R122). -/
def fetchedBytes (s : State) (ps : List Nat) : List Byte :=
  let new := s.mem.readBytes ps
  let old := s.imem.readBytes ps
  if new = old then new else if Config.fetchOld s.freeCtr (ps.headD 0) then old else new

/-- Fetch the 2-byte unit at `va`; every fetch checks the permissions of its page (20 R149, log 10). -/
def fetchUnit (s : State) (va : Word) : Except Trap (List Byte) := do
  require (sameMapping s va) (.stop .mappingChanged)
  let ps ← translateAll s s.xm .fetch va 2
  .ok (fetchedBytes s ps)

/-- Fetch 2-byte units from `va` on until the instruction that starts with `bs` is whole; 16 units are the longest (30 R183). -/
def fetchFrom (s : State) : Nat → Word → List Byte → Except Trap (List Byte)
  | 0, _, bs => .ok bs
  | fuel + 1, va, bs =>
    if neededBytes bs ≤ bs.length then .ok bs
    else do
      let u ← fetchUnit s va
      fetchFrom s fuel (va + 2) (bs ++ u)

/-- How many 2-byte units follow the opcode word of instruction `i` beyond its encoding: the operands of a machine-specific instruction
that the machine provides (46 R475). -/
def machineUnits (s : State) (i : Instr) : Nat :=
  match i with
  | .machineSpecific lo _ => ((machineOpcode s.cfg lo).map fun m => m.units.val).getD 0
  | _ => 0

/-- The address after instruction `i` at `ip`. -/
def instrEnd (s : State) (i : Instr) : Word := nextAfter s ((encode i).length + 2 * machineUnits s i)

/-- Fetch `n` further 2-byte units from `va` on, whose contents the decoder does not need. -/
def fetchUnits (s : State) : Nat → Word → Except Trap Unit
  | 0, _ => .ok ()
  | n + 1, va => do
    let _ ← fetchUnit s va
    fetchUnits s n (va + 2)

/-- The instruction at `ip` (30 R209 steps 1 to 4): an odd `ip` is XA (20 R106), bytes that are no instruction are UND. -/
def fetchDecode (s : State) : Except Trap Instr := do
  require (!s.ip.getLsbD 0) (.exc (.xa s.ip))
  let bs ← fetchFrom s 16 s.ip []
  match decode bs with
  | .ok (i, _) => do
    fetchUnits s (machineUnits s i) (nextAfter s (encode i).length)
    .ok i
  | .error _ => .error (.exc .und)

/-! ### The instruction boundary (60 R550 to R555) -/

/-- The lowest-numbered pending interrupt request: bit i is vector 32 + i. -/
def lowestIrq (irq : BitVec 32) : Option Nat := (List.range 32).find? fun i => irq.getLsbD i

/-- Clear a pending request (60 R550). -/
def clearIrq (s : State) (i : Nat) : State := { s with irq := s.irq &&& ~~~(1#32 <<< i) }

/-- Deliver NMI, vector 5: `fcode` is a free value (60 R516, R531). -/
def deliverNmi (s : State) : State :=
  deliverException { s with nmi := false, fcode := Config.freeFcode s.freeCtr } 5 s.ip

/-- Deliver interrupt request `i`: the saved ip is the next instruction's (60 R521, R527). -/
def deliverIrq (s : State) (i : Nat) : State := deliverInterrupt (clearIrq s i) (32 + i) s.ip s.ip

/-- The delivery that is due at this boundary: NMI first, else with cr0.IE the lowest-numbered request (60 R551, R554). -/
def pendingDelivery (s : State) : Option State :=
  if s.nmi then some (deliverNmi s)
  else if interruptsOn s.cr0 then (lowestIrq s.irq).map (deliverIrq s)
  else none

/-! ### Side effects of the machine-specific registers (10 R68, log 15) -/

/-- Does `i` read or write machine-specific registers to which the machine gives a behaviour of its own? `storegf` and `rstregf` access all
of them (46 R499, R500); in program mode an access is PROT and has no effect (10 R68, 60 R526). -/
def accessesMsr (s : State) (i : Instr) : Bool :=
  !s.xm && s.cfg.msrBehaviour == .machine &&
    match i with
    | .storegf _ | .rstregf _ => true
    | _ => (operandsOf i).any isMsrOperand

/-- The outcome of an instruction together with the side effects of the machine-specific registers it accesses (10 R68): they take place on
the state it would leave, `t`, or raise an exception instead of it. -/
def accessEffects (s : State) (i : Instr) : Host.Outcome State Fault Refusal → Host.Outcome State Fault Refusal
  | .next t =>
    if accessesMsr s i then
      match Config.msrEffect s t with
      | .ok e => finish s (machineApply t t.ip e)
      | .error x => finish s (.error (.exc x))
    else .next t
  | .fault f => .fault f
  | .refused r => .refused r

/-! ### The end of a step (20 R151, log 18) -/

/-- May the machine go on from `t`, the state after executing, or delivering before, the instruction at `s.ip` that ends before `next`: is
that instruction still mapped as it was, or has the CPU been reset (20 R151, 70 R581)? -/
def mayContinue (s t : State) (next : Word) : Bool := keepsOwnMapping s t next || t == resetCpu t

/-- Stop where a step has mapped the page being executed elsewhere, whether or not it is fetched from again (20 R151). -/
def checkMapping (s : State) (next : Word) : Host.Outcome State Fault Refusal → Host.Outcome State Fault Refusal
  | .next t => if mayContinue s t next then .next t else .fault .mappingChanged
  | .fault f => .fault f
  | .refused r => .refused r

/-! ### The counter of the free values (log 4) -/

/-- Advance the counter. -/
def tick (s : State) : State := { s with freeCtr := s.freeCtr + 1 }

/-- Advance the counter in the next state, if there is one. -/
def tickOutcome : Host.Outcome State Fault Refusal → Host.Outcome State Fault Refusal
  | .next s => .next (tick s)
  | .fault f => .fault f
  | .refused r => .refused r

/-! ### Placing an instruction where it will be fetched -/

/-- Store a byte where a fetch at `va` reads it, in memory and in what the instruction cache may hold; nothing where a fetch faults. -/
def placeByte (s : State) (va : Word) (b : Byte) : State :=
  match translate s s.xm .fetch va with
  | .ok p => { s with mem := s.mem.write p b, imem := s.imem.write p b }
  | .error _ => s

/-- Store bytes where a fetch from `va` on reads them. -/
def placeBytes (s : State) : Word → List Byte → State
  | _, [] => s
  | va, b :: bs => placeBytes (placeByte s va b) (va + 1) bs

end Sys2Proof.Machine
end

