-- ==== Sys2Proof/Machine/Step.lean ====
section
/-!
DEFINITION. One step (70 R600): deliver what is pending, or idle while halted, or fetch and execute one instruction.
-/

namespace Sys2Proof.Machine

/-- Fetch, decode and execute the instruction at `ip`, with the side effects of the machine-specific registers it accesses (10 R68); its own
page must stay mapped (20 R151). -/
def runInstruction (s : State) : Host.Outcome State Fault Refusal :=
  match fetchDecode s with
  | .ok i => checkMapping s (instrEnd s i) (accessEffects s i (exec i s))
  | .error t => checkMapping s (s.ip + 1) (finish s (.error t))

/-- One step. While halted with nothing to deliver the CPU does nothing (46 R480, 70 R600). -/
def step (s : State) : Host.Outcome State Fault Refusal :=
  match pendingDelivery s with
  | some t => tickOutcome (checkMapping s (s.ip + 1) (.next t))
  | none => if s.halted then .next s else tickOutcome (runInstruction s)

/-- The instruction of a table row, stored where the next step fetches, with nothing pending and not halted (log 3). -/
def State.withFetchWord (s : State) (nbits w : Nat) : State :=
  { placeBytes s s.ip (tableBytes nbits w) with halted := false, nmi := false, irq := 0 }

end Sys2Proof.Machine
end

