-- ==== Sys2Proof/Safety.lean ====
section
/-!
DEFINITION. The terms claims use: an outcome that goes on, the invariant of the machine, what an instruction leaves alone, and the state
that belongs to the supervisor.
-/

namespace Sys2Proof.Machine

/-- Every field of the state but those an ordinary data instruction may change (gpr, flags, memory, ip) is the same. -/
def SameControl (s t : State) : Prop :=
  t.mode = s.mode ∧ t.cr0 = s.cr0 ∧ t.page = s.page ∧ t.flprotect = s.flprotect ∧ t.scdp = s.scdp ∧ t.scsp = s.scsp ∧
    t.sccr = s.sccr ∧ t.itabp = s.itabp ∧ t.ciread = s.ciread ∧ t.fcode = s.fcode ∧ t.pfcharp = s.pfcharp ∧ t.msr = s.msr ∧
    t.halted = s.halted ∧ t.nmi = s.nmi ∧ t.irq = s.irq ∧ t.imem = s.imem ∧ t.wmem = s.wmem ∧ t.wptl = s.wptl ∧ t.brCr0 = s.brCr0 ∧
    t.brPage = s.brPage ∧ t.brMem = s.brMem ∧ t.rlp = s.rlp ∧ t.cecw = s.cecw ∧ t.cfg = s.cfg ∧ t.freeCtr = s.freeCtr

/-- Every general register but those in the list is the same. -/
def SameGprsBut (rs : List (BitVec 4)) (s t : State) : Prop := ∀ r : BitVec 4, r ∉ rs → getGpr t r = getGpr s r

/-- Every byte of memory but those at the addresses in the list reads the same. -/
def SameMemoryBut (ps : List Nat) (s t : State) : Prop := ∀ a : Nat, a ∉ ps → t.mem.read a = s.mem.read a

/-- The bits of `flags` outside `mask` are the same. -/
def SameFlagsBut (mask : Word) (s t : State) : Prop := t.flags &&& ~~~mask = s.flags &&& ~~~mask

/-- The four memories are in canonical form. -/
def MemoryCanonical (s : State) : Prop := s.mem.wf ∧ s.imem.wf ∧ s.wmem.wf ∧ s.brMem.wf

/-- XMM is a copy of XM (10 R35). -/
def ModeLegal (s : State) : Prop := modeXM s.mode = modeXMM s.mode

/-- Bits 63:5 of `flags` are 0 (10 R33). -/
def FlagsLegal (s : State) : Prop := s.flags.extractLsb' 5 59 = 0#59

/-- The reserved bits of `cr0` are 0 and PTL is at most VAS (10 R55). -/
def Cr0Legal (s : State) : Prop := s.cr0 &&& ~~~0x3b#64 = 0 ∧ ptlOf s.cr0 ≤ s.cfg.vas.val

/-- The reserved bits of `sccr` are 0 (10 R60). -/
def SccrLegal (s : State) : Prop := s.sccr &&& ~~~2#64 = 0

/-- `ip` is even (10 R32, 20 R106). -/
def IpAligned (s : State) : Prop := s.ip.getLsbD 0 = false

/-- The invariant of the machine. -/
structure Inv (s : State) : Prop where
  memory : MemoryCanonical s
  mode : ModeLegal s
  flags : FlagsLegal s
  cr0 : Cr0Legal s
  sccr : SccrLegal s
  ip : IpAligned s

/-- What program mode may not change (60 R560): the Supervisor registers but `fcode`, which the CPU itself writes on exceptions; the upper
half of `mode`; the devices and the parameters. -/
def SameSupervisor (s t : State) : Prop :=
  t.cr0 = s.cr0 ∧ t.page = s.page ∧ t.flprotect = s.flprotect ∧ t.scdp = s.scdp ∧ t.scsp = s.scsp ∧ t.sccr = s.sccr ∧
    t.itabp = s.itabp ∧ t.ciread = s.ciread ∧ t.pfcharp = s.pfcharp ∧ t.msr = s.msr ∧
    t.mode.extractLsb' 32 32 = s.mode.extractLsb' 32 32 ∧ t.rlp = s.rlp ∧ t.cecw = s.cecw ∧ t.cfg = s.cfg

/-! ### Operands and flags in the terms of the rules -/

/-- Operand `a` passes its register check and reads as `x` (30 R203, R208). -/
def Reads (s : State) (next : Word) (a : Operand) (x : Word) : Prop := opReadCheck s a = .ok () ∧ loadOp s next a = .ok x

/-- Operand `a` accepts `v`, which goes to `dst` (30 R206 to R209). -/
def Accepts (s : State) (next : Word) (a : Operand) (dst : Dest) (v : Word) : Prop :=
  opWriteCheck s a = .ok () ∧ destOf s next a = .ok dst ∧ destCheck s dst v = .ok ()

/-- Operand `a` can be written, but not with the value `v`, which raises `t` (30 R209 step 9). -/
def Rejects (s : State) (next : Word) (a : Operand) (v : Word) (t : Trap) : Prop :=
  opWriteCheck s a = .ok () ∧ ∃ dst, destOf s next a = .ok dst ∧ destCheck s dst v = .error t

/-- A check, or an access of which only the success matters. -/
def attempt {α : Type} (r : Except Trap α) : Except Trap Unit := r.map fun _ => ()

/-- What the first of these checks that fails raises. -/
def firstTrap : List (Except Trap Unit) → Option Trap
  | [] => none
  | .error t :: _ => some t
  | .ok _ :: cs => firstTrap cs

/-- Of these checks, made in this order, the first that fails raises `t` (30 R209). -/
abbrev Raises (checks : List (Except Trap Unit)) (t : Trap) : Prop := firstTrap checks = some t

/-- `t` ends instruction `i`, which does nothing else: an exception is taken from the state before `i` (60 R525, R526), a stop of the model
stops the machine. -/
def Abandons (i : Instr) (s : State) : Trap → Prop
  | .exc e => exec i s = .next (takeException s e)
  | .stop f => exec i s = .fault f
  | .refuse r => exec i s = .refused r

/-- Z and N are those of the `d`-bit result `r` (10 R46). -/
def ZNOf (fl r : Word) (d : Nat) : Prop := flagZ fl = decide (r.toNat = 0) ∧ flagN fl = r.getLsbD (d - 1)

/-- The flags outside `mask` are kept (10 R45). -/
def KeepsFlags (mask old new : Word) : Prop := new &&& ~~~mask = old &&& ~~~mask

/-- `r` is the `d`-bit result of an ALU operation on `x` and `y`, said with integers (40 R243 to R247). -/
def AluOp.ResultIs (op : AluOp) (d : Nat) (x y r : Word) : Prop :=
  match op with
  | .add => r.toNat = (x.toNat + y.toNat) % 2 ^ d
  | .sub => (r.toNat : Int) = ((x.toNat : Int) - (y.toNat : Int)) % (2 ^ d : Int)
  | .and => r.toNat = (x.toNat &&& y.toNat) % 2 ^ d
  | .or => r.toNat = (x.toNat ||| y.toNat) % 2 ^ d
  | .xor => r.toNat = (x.toNat ^^^ y.toNat) % 2 ^ d

/-- The signed integer that the low `d` bits of a value stand for (00 R12). -/
def signedValue (d : Nat) (v : Word) : Int :=
  if v.toNat % 2 ^ d < 2 ^ (d - 1) then ((v.toNat % 2 ^ d : Nat) : Int) else ((v.toNat % 2 ^ d : Nat) : Int) - (2 ^ d : Int)

/-- One step of a shift by one bit of the `d`-bit value `a`: the new value and the bit moved out; `c0` is the carry before the
instruction (43 R352 to R358, "Step"). -/
def ShiftOp.oneBit (op : ShiftOp) (d : Nat) (c0 : Bool) (a : Word) : Shifted :=
  match op with
  | .lsh => ⟨trunc d (a <<< 1), a.getLsbD (d - 1)⟩
  | .rsh => ⟨a >>> 1, a.getLsbD 0⟩
  | .arsh => ⟨setBit (a >>> 1) (d - 1) (a.getLsbD (d - 1)), a.getLsbD 0⟩
  | .lshc => ⟨setBit (trunc d (a <<< 1)) 0 c0, a.getLsbD (d - 1)⟩
  | .rshc => ⟨setBit (a >>> 1) (d - 1) c0, a.getLsbD 0⟩
  | .lrot => ⟨setBit (trunc d (a <<< 1)) 0 (a.getLsbD (d - 1)), a.getLsbD (d - 1)⟩
  | .rrot => ⟨setBit (a >>> 1) (d - 1) (a.getLsbD 0), a.getLsbD 0⟩

/-- `c` one-bit steps; with none, nothing is moved out (43 R351). -/
def ShiftOp.iterate (op : ShiftOp) (d : Nat) (c0 : Bool) : Nat → Word → Shifted
  | 0, a => ⟨a, false⟩
  | c + 1, a => op.oneBit d c0 (op.iterate d c0 c a).value

/-- The instructions that may write `mode` (10 R36). -/
def writesMode : Instr → Bool
  | .jsm _ _ | .callsm _ _ _ | .retrsm | .scall | .intr _ | .scret | .reti | .rstoar _ | .popar | .rstregf _ => true
  | _ => false

end Sys2Proof.Machine
end

