-- ==== Sys2Proof/Certificates/Slice0/Obligations.lean ====
section
/-!
DEFINITION. The statements for the provers. Each docstring names the rule of spec/ it formalises.
-/

open Sys2Proof Sys2Proof.Machine

/-! ### Encoding -/

/-- Decoding the encoding of a well-formed instruction gives it back, and the bytes after it (30 R180 to R190, R220).
Rests on choices the spec marks as its own (92 D12). -/
def Obligations.DecodeEncode : Prop :=
  ∀ (i : Instr) (rest : List Byte), WellFormed i = true → decode (encode i ++ rest) = .ok (i, rest)

/-- What the decoder accepts is well-formed and encodes to the bytes that were read: no bit is ignored (30 R181, R190).
Rests on choices the spec marks as its own (92 D12). -/
def Obligations.EncodeDecode : Prop :=
  ∀ (bs rest : List Byte) (i : Instr), decode bs = .ok (i, rest) → WellFormed i = true ∧ encode i ++ rest = bs

/-- Every length is even, from 2 to 32 bytes, and is told by the instruction's own bytes (30 R183). -/
def Obligations.EncodedLength : Prop :=
  ∀ (i : Instr) (rest : List Byte), WellFormed i = true →
    neededBytes (encode i ++ rest) = (encode i).length ∧ (encode i).length % 2 = 0 ∧ 2 ≤ (encode i).length ∧
      (encode i).length ≤ 32

/-- Words written out from the rules' own examples decode to the instructions they stand for.
Rests on choices the spec marks as its own (92 D12). -/
def Obligations.DecodeSamples : Prop :=
  decode [0x00, 0x10, 0x03, 0x00, 0x80, 0x05] = .ok (.add false false (.reg .b64 0) (.short false 5), []) ∧
  decode [0x00, 0x6c] = .ok (.mul .b64 false, []) ∧
  decode [0x00, 0xa3, 0xe0, 0x20, 0x00, 0x20] = .ok (.movrToGpr 3 (.mref false (.i16 0x2000) .b32), []) ∧
  decode [0x01, 0x50, 0x03, 0x00] = .ok (.pop (.reg .b64 0), []) ∧
  decode [0x02, 0x93, 0x02, 0xb0] = .ok (.repbc .z (.bsto .b8), []) ∧
  decode [0x03, 0x50, 0x00, 0x00, 0x80, 0x01] = .ok (.lrot false false (.reg .b8 0) (.short false 1), []) ∧
  decode [0x04, 0x91, 0x40, 0x74] = .ok (.addrGprSrc 1 (.ind (.num 0) 0 .b64 4), []) ∧
  decode [0x06, 0xe1, 0x80, 0x05] = .ok (.cmpr 1 (.short false 5), []) ∧
  decode [0x20, 0x10, 0x40, 0x74, 0x03, 0x00, 0x03, 0x01] =
    .ok (.cmpxchg (.ind (.num 0) 0 .b64 4) (.reg .b64 0) (.reg .b64 1), []) ∧
  decode [0x71, 0x30, 0xfc, 0xff] = .ok (.jz16 true 0 0xfffc, []) ∧
  decode [0x7c, 0xc8, 0x00, 0x40] = .ok (.callsm false true (.i16 0x4000), []) ∧
  decode [0x80, 0x50, 0xe0, 0x00, 0x00, 0x30] = .ok (.iflush (.mref false (.i16 0x3000) .b8), []) ∧
  decode [0xfc, 0x70] = .ok (.reti, [])

/-! ### The step -/

/-- A step runs the decoded instruction: where the 2-byte units fetched from `ip` on are the bytes of a well-formed instruction (and those
of a machine-specific one that follow can be fetched), and nothing is pending, the step is that instruction's meaning, with the free-value
counter advanced in the next state (70 R600), and, where the instruction accesses machine-specific registers of a machine that gives them a
behaviour of its own, with the side effects of that access, or the exception it raises instead (10 R68, log 15). It stops where the meaning
maps the page being executed elsewhere (20 R151, log 18); it goes on where paging is off before and after, or `cr0`, `page` and memory are
the same, or the CPU was reset.
Rests on the model's choices of log 4, 15, 18, 23. -/
def Obligations.StepRunsDecoded : Prop :=
  ∀ (s : State) (i : Instr), pendingDelivery s = none → s.halted = false → IpAligned s → WellFormed i = true →
    (∀ k, 2 * k < (encode i).length →
      fetchUnit s (s.ip + BitVec.ofNat 64 (2 * k)) = .ok (((encode i).drop (2 * k)).take 2)) →
    (∀ k, k < machineUnits s i → ∃ u, fetchUnit s (s.ip + BitVec.ofNat 64 ((encode i).length + 2 * k)) = .ok u) →
    (step s =
      match accessEffects s i (exec i s) with
      | .next t =>
        if mayContinue s t (s.ip + BitVec.ofNat 64 ((encode i).length + 2 * machineUnits s i)) = true then
          .next { t with freeCtr := t.freeCtr + 1 }
        else .fault .mappingChanged
      | .fault f => .fault f
      | .refused r => .refused r) ∧
    (accessesMsr s i = true ↔ s.xm = false ∧ s.cfg.msrBehaviour = .machine ∧
      ((∃ a, i = .storegf a) ∨ (∃ a, i = .rstregf a) ∨
        ∃ sz r, .reg sz r ∈ operandsOf i ∧ 148 ≤ r.toNat ∧ r.toNat ≤ 154)) ∧
    (accessesMsr s i = false → accessEffects s i (exec i s) = exec i s) ∧
    (accessesMsr s i = true → ∀ t, exec i s = .next t →
      accessEffects s i (exec i s) =
        match Config.msrEffect s t with
        | .ok e => finish s (machineApply t t.ip e)
        | .error x => .next (takeException s x)) ∧
    ∀ t, accessEffects s i (exec i s) = .next t →
      ((pagingOn s.cr0 = false ∧ pagingOn t.cr0 = false) ∨ t = resetCpu t ∨
          (t.cr0 = s.cr0 ∧ t.page = s.page ∧ t.mem = s.mem ∧ t.cfg = s.cfg) →
        step s = .next { t with freeCtr := t.freeCtr + 1 }) ∧
      (pagingOn s.cr0 = true → s.brCr0 = s.cr0 → s.brPage = s.page → s.brMem = s.mem → ptlBits t.cr0 = ptlBits s.cr0 →
        (pagingOn t.cr0 = false ∨ t.page.extractLsb' 0 12 = 0#12) → t ≠ resetCpu t → mappedTo t s.ip ≠ mappedTo s s.ip →
        step s = .fault .mappingChanged)

/-- With paging off, a fetch of two addresses in range and present gives what memory holds there or, both bytes alike, what the
instruction cache may still hold; after a synchronisation the two agree (20 R121, R122).
Rests on choices the spec marks as its own (92 D31) and the model's choices of log 9. -/
def Obligations.FetchOldOrNew : Prop :=
  ∀ (s : State) (va : Word), pagingOn s.cr0 = false → pagingOn s.brCr0 = false →
    physInRange s.cfg va = true → present s.cfg va = true →
    physInRange s.cfg (va + 1) = true → present s.cfg (va + 1) = true →
    let ps := [va.toNat, (va + 1).toNat]
    (fetchUnit s va = .ok (s.mem.readBytes ps) ∨ fetchUnit s va = .ok (s.imem.readBytes ps)) ∧
      fetchUnit (syncCode s) va = .ok (s.mem.readBytes ps)

/-- What the fetch raises: an odd `ip` XA with that address, a fetch fault itself, bytes that are no instruction UND, a fault in the
operands of a machine-specific instruction itself; each is taken by the step with the instruction's own address saved (30 R209 steps 1 to
4, 20 R106). The step stops only where that delivery maps the page of `ip` elsewhere (20 R151, log 18), never with paging off.
Rests on choices the spec marks as its own (92 D2) and the model's choices of log 10, 18, 23. -/
def Obligations.FetchFaultsTaken : Prop :=
  ∀ (s : State), pendingDelivery s = none → s.halted = false →
    let taken (e : Exc) : Prop :=
      (mayContinue s (takeException s e) (s.ip + 1) = true → step s = .next (tick (takeException s e))) ∧
      (mayContinue s (takeException s e) (s.ip + 1) = false → step s = .fault .mappingChanged) ∧
      (pagingOn s.cr0 = false → step s = .next (tick (takeException s e)))
    (s.ip.getLsbD 0 = true → taken (.xa s.ip)) ∧
    (∀ e, s.ip.getLsbD 0 = false → fetchFrom s 16 s.ip [] = .error (.exc e) → taken e) ∧
    (∀ bs e, s.ip.getLsbD 0 = false → fetchFrom s 16 s.ip [] = .ok bs → decode bs = .error e → taken .und) ∧
    (∀ bs rest lo h m e, s.ip.getLsbD 0 = false → fetchFrom s 16 s.ip [] = .ok bs → decode bs = .ok (.machineSpecific lo h, rest) →
      machineOpcode s.cfg lo = some m → fetchUnits s m.units.val (s.ip + 2) = .error (.exc e) → taken e)

/-- While halted with nothing to deliver, a step changes nothing. At a boundary NMI is delivered whatever IE is; else, with IE, the
lowest-numbered pending request, whose bit is cleared and which saves the address of the next instruction; with IE clear no request is
delivered (46 R480, 60 R550 to R554). A delivery that maps the page of `ip` elsewhere stops (20 R151, log 18), never with paging off.
Rests on choices the spec marks as its own (92 D6, D7, D32) and the model's choices of log 4, 18, 32, 33. -/
def Obligations.InterruptBoundary : Prop :=
  (∀ (s : State), s.halted = true → s.nmi = false → (interruptsOn s.cr0 = false ∨ s.irq = 0) → step s = .next s) ∧
  (∀ (s : State),
     let delivered (t : State) : Prop :=
       step s = (if mayContinue s t (s.ip + 1) = true then .next (tick t) else .fault .mappingChanged) ∧
       (pagingOn s.cr0 = false → step s = .next (tick t))
     (s.nmi = true → delivered (deliverException { s with nmi := false, fcode := Config.freeFcode s.freeCtr } 5 s.ip)) ∧
     (∀ i : Fin 32, s.nmi = false → interruptsOn s.cr0 = true → s.irq.getLsbD i.val = true →
       (∀ j : Nat, j < i.val → s.irq.getLsbD j = false) →
       ∃ t, delivered (deliverInterrupt t (32 + i.val) s.ip s.ip) ∧ t = { s with irq := t.irq } ∧
         ∀ j : Nat, t.irq.getLsbD j = (s.irq.getLsbD j && j != i.val)) ∧
     (s.nmi = false → interruptsOn s.cr0 = false → pendingDelivery s = none))

/-- The state at initialisation, as far as the spec gives it, for every machine and boot image: the image in 0x0000..0xffff, 0 beyond it
(10 R85, 70 R584), not halted, nothing pending, caches empty (70 R581). `State.reset` is that state for the default machine and no image.
Rests on choices the spec marks as its own (92 D28) and the model's choices of log 2, 3. -/
def Obligations.ResetState : Prop :=
  (∀ (p : Params) (boot : List Byte),
     let s := State.initial p boot
     s.ip = 0xff00 ∧ s.flags = 0 ∧ modeXM s.mode = false ∧ modeXMM s.mode = false ∧ s.cr0 = 0 ∧ s.flprotect = 0 ∧ s.ciread = 0 ∧
       (∀ a, a ≤ 0xffff → s.mem.read a = boot.getD a 0) ∧ (∀ a, 0xffff < a → s.mem.read a = 0) ∧
       s.halted = false ∧ s.nmi = false ∧ s.irq = 0 ∧ s.imem = s.mem ∧ s.wmem = s.mem ∧ s.wptl = ptlBits s.cr0 ∧
       (∀ c : Fin 128, cpuEnabled s c = false) ∧ s.cfg = p) ∧
  State.reset = State.initial Params.default []

/-- The invariant holds at initialisation, for every machine and boot image, and so at reset.
Rests on choices the spec marks as its own (92 D22, D23) and the model's choices of log 1. -/
def Obligations.ResetInv : Prop := (∀ (p : Params) (boot : List Byte), Inv (State.initial p boot)) ∧ Inv State.reset

/-- Every step from a state with the invariant keeps it: the memories canonical, XMM a copy of XM, reserved bits of `flags`, `cr0` and
`sccr` zero, PTL at most VAS, `ip` even (10 R33, R35, R55, R60, R32).
Rests on choices the spec marks as its own (92 D22, D23, D25) and the model's choices of log 17. -/
def Obligations.StepKeepsInv : Prop := ∀ s t : State, Inv s → step s = .next t → Inv t

/-- A step from program mode to program mode changes no Supervisor register but `fcode`, nor the upper half of `mode`, nor a device
(60 R560, 10 R37, R38).
Rests on choices the spec marks as its own (92 D22). -/
def Obligations.ProgramModeKeepsSupervisor : Prop :=
  ∀ s t : State, s.xm = true → step s = .next t → t.xm = true → SameSupervisor s t

/-- Only the listed instructions write `mode`; any other leaves it, or takes an exception, which writes it too. Naming `mode` as a written
operand is UND in either mode (10 R36). -/
def Obligations.OnlyModeWriters : Prop :=
  (∀ (i : Instr) (s t : State), writesMode i = false → exec i s = .next t → t.mode = s.mode ∨ ∃ e, t = takeException s e) ∧
  (∀ (s : State) (sz : Size), opWriteCheck s (.reg sz 18) = .error (.exc .und) ∧ popCheck s (.reg sz 18) = .error (.exc .und))

/-! ### Taking exceptions and interrupts -/

/-- The entry sequence: with a readable table entry, a stack that takes 32 bytes with supervisor rights and a handler that can be
fetched, the frame is stored below the new stack (the entry's, or the current one if that is 0), r7 points to it, XM and XMM are cleared,
the other bits of `mode`, `flags`, `cr0` and the other gprs are kept, and the handler is next (60 R533).
Rests on choices the spec marks as its own (92 D4). -/
def Obligations.EntrySequence : Prop :=
  ∀ (s : State) (v : Nat) (ip flags sp : Word) (e : ItabEntry) (ps : List Nat),
    itabEntry s v = .ok e →
    translateAll s false .write ((if e.sp = 0 then getGpr s 7 else e.sp) - 32) 32 = .ok ps →
    checkTarget s false e.ip = .ok () →
    ∃ t, enter s v ip flags sp = .ok t ∧ t.ip = e.ip ∧ getGpr t 7 = (if e.sp = 0 then getGpr s 7 else e.sp) - 32 ∧
      t.mem.readBytes ps = bytesLE 8 ip.toNat ++ bytesLE 8 s.mode.toNat ++ bytesLE 8 flags.toNat ++ bytesLE 8 sp.toNat ∧
      (∀ i, t.mode.getLsbD i = (s.mode.getLsbD i && i != 32 && i != 33)) ∧ SameMemoryBut ps s t ∧ SameGprsBut [7] s t ∧
      t.halted = false ∧ t.imem = t.mem ∧ t.wmem = t.mem ∧
      t = { s with
        ip := t.ip, gpr := t.gpr, mem := t.mem, mode := t.mode, halted := t.halted, imem := t.imem, wmem := t.wmem
        wptl := ptlBits s.cr0, brCr0 := s.cr0, brPage := s.page, brMem := t.mem }

/-- Each synchronous exception is delivered through its vector with the instruction's own address saved and its `fcode`: UND 1 and DIV 6
any value, PROT 2 zero, PF 3 the address (here with `pfcharp` = 0), XA 4 the target (60 R510, R527, R531).
Rests on choices the spec marks as its own (92 D3, D41) and the model's choices of log 4. -/
def Obligations.ExceptionVectors : Prop :=
  ∀ (s t : State),
    (enter { s with fcode := Config.freeFcode s.freeCtr } 1 s.ip s.flags (getGpr s 7) = .ok t → takeException s .und = t) ∧
    (enter { s with fcode := 0 } 2 s.ip s.flags (getGpr s 7) = .ok t → takeException s .prot = t) ∧
    (∀ i, s.pfcharp = 0 → enter { s with fcode := i.fcode } 3 s.ip s.flags (getGpr s 7) = .ok t →
      takeException s (.pf i) = t) ∧
    (∀ a, enter { s with fcode := a } 4 s.ip s.flags (getGpr s 7) = .ok t → takeException s (.xa a) = t) ∧
    (enter { s with fcode := Config.freeFcode s.freeCtr } 6 s.ip s.flags (getGpr s 7) = .ok t → takeException s .div = t)

/-- Escalation: a table that is not aligned to 32 bytes resets; with a readable extent, an exception outside it is ABRT, an interrupt
outside it PROT, and ABRT outside it reset. An entry that succeeds is the delivery, of an exception, an interrupt or ABRT; an ABRT whose
entry fails resets. A fault in servicing is ABRT, but a Debug Trap that cannot be serviced is dropped: the machine goes on at the saved
address (60 R521, R522, R534, R535, 70 R581; the dropped trap is the spec's own choice, 92 D4).
Rests on choices the spec marks as its own (92 D4, D28) and the model's choices of log 13, 17. -/
def Obligations.Escalation : Prop :=
  (∀ (s : State) (v : Nat) (ip protIp extent : Word),
     (s.itabp.extractLsb' 0 5 ≠ 0#5 →
       deliverAbort s = resetCpu s ∧ deliverException s v ip = resetCpu s ∧ deliverInterrupt s v ip protIp = resetCpu s) ∧
     (s.itabp.extractLsb' 0 5 = 0#5 → physRead8 s s.itabp = .ok extent → min extent.toNat 2048 < 32 * (v + 1) →
       deliverException s v ip = deliverAbort s ∧
       deliverInterrupt s v ip protIp = deliverException { s with fcode := 0 } 2 protIp ∧
       (v = 0 → deliverAbort s = resetCpu s)) ∧
     (resetCpu s).ip = 0xff00 ∧ (resetCpu s).flags = 0 ∧ (resetCpu s).xm = false ∧ (resetCpu s).cr0 = 0 ∧
     (resetCpu s).flprotect = 0 ∧ (resetCpu s).ciread = 0 ∧ (resetCpu s).halted = false ∧ (resetCpu s).nmi = false ∧
     (resetCpu s).irq = 0 ∧ (resetCpu s).mem = s.mem ∧ (resetCpu s).imem = s.mem ∧ (resetCpu s).wmem = s.mem ∧
     (resetCpu s).rlp = s.rlp ∧ (resetCpu s).cecw = s.cecw ∧ (resetCpu s).cfg = s.cfg) ∧
  (∀ (s : State) (v : Nat) (ip protIp : Word), enter s v ip s.flags (getGpr s 7) = .error .servicing →
     deliverInterrupt s v ip protIp = (if v = 16 then { s with ip := ip, halted := false } else deliverAbort s) ∧
     deliverException s v ip = deliverAbort s) ∧
  (∀ (s t : State) (v : Nat) (ip protIp : Word), enter s v ip s.flags (getGpr s 7) = .ok t →
     deliverException s v ip = t ∧ deliverInterrupt s v ip protIp = t) ∧
  (∀ (s : State),
     let entry := enter { s with fcode := 0 } 0 (Config.abortIp s.freeCtr) (Config.abortFlags s.freeCtr) (Config.abortSp s.freeCtr)
     (∀ t, entry = .ok t → deliverAbort s = t) ∧ ∀ e, entry = .error e → deliverAbort s = resetCpu s)

/-- The fault information: 16 bytes at `pfcharp`, written with supervisor rights; nothing if `pfcharp` is 0; ABRT if it is not aligned to
16 bytes or the write faults (20 R152, 60 R534).
Rests on choices the spec marks as its own (92 D4, D42) and the model's choices of log 8. -/
def Obligations.FaultInformation : Prop :=
  ∀ (s : State) (i : PageFaultInfo),
    (s.pfcharp = 0 → takeException s (.pf i) = deliverException { s with fcode := i.fcode } 3 s.ip) ∧
    (∀ ps, s.pfcharp ≠ 0 → s.pfcharp.extractLsb' 0 4 = 0#4 → translateAll s false .write s.pfcharp 16 = .ok ps →
      ∃ m : Memory, takeException s (.pf i) = deliverException { s with fcode := i.fcode, mem := m } 3 s.ip ∧
        m.readBytes ps =
          bytesLE 8 i.pref.toNat ++ [i.plevel, i.kind] ++ bytesLE 2 i.status.toNat ++ [0, 0, 0, 0] ∧
        ∀ a, a ∉ ps → m.read a = s.mem.read a) ∧
    (s.pfcharp ≠ 0 →
      (s.pfcharp.extractLsb' 0 4 ≠ 0#4 ∨ ∃ e, translateAll s false .write s.pfcharp 16 = .error e) →
      takeException s (.pf i) = deliverAbort { s with fcode := i.fcode })

/-- With paging off, `reti` after an entry undoes it: `ip`, `mode`, `flags` and every gpr are as they were saved, and memory keeps the
frame (60 R540, 46 R472).
Rests on choices the spec marks as its own (92 D4, D20, D21, D22, D43) and the spec's own resolution 90 C12. -/
def Obligations.ReturnUndoesEntry : Prop :=
  ∀ (s t : State) (v : Nat) (ip : Word), pagingOn s.cr0 = false → ModeLegal s → ip.getLsbD 0 = false →
    physInRange s.cfg ip = true → present s.cfg ip = true → enter s v ip s.flags (getGpr s 7) = .ok t →
    ∃ u, exec .reti t = .next u ∧ u.ip = ip ∧ u.mode = s.mode ∧ u.flags = s.flags ∧ u.gpr = s.gpr ∧ u.mem = t.mem ∧
      u.cr0 = s.cr0

/-- A supervisor instruction in program mode is PROT, whatever its operands (46 R470, 60 R513).
Rests on choices the spec marks as its own (92 D2, D18). -/
def Obligations.SupervisorOnly : Prop :=
  ∀ (s : State), s.xm = true →
    (∀ i ∈ [Instr.scret, .reti, .halt, .pcfl, .flall], exec i s = .next (takeException s .prot)) ∧
    (∀ a, exec (.dflush a) s = .next (takeException s .prot) ∧ exec (.iflush a) s = .next (takeException s .prot) ∧
      exec (.storegf a) s = .next (takeException s .prot) ∧ exec (.rstregf a) s = .next (takeException s .prot)) ∧
    (∀ ss, exec (.inp ss) s = .next (takeException s .prot) ∧ exec (.outp ss) s = .next (takeException s .prot)) ∧
    (∀ ss cc, exec (.repbi cc (.inp ss)) s = .next (takeException s .prot) ∧
      exec (.repbi cc (.outp ss)) s = .next (takeException s .prot) ∧
      exec (.repbc cc (.inp ss)) s = .next (takeException s .prot) ∧
      exec (.repbc cc (.outp ss)) s = .next (takeException s .prot))

/-! ### Memory and paging -/

/-- With paging off, an address out of the physical range or without memory is a page fault at that address with the stated fault
information, else it is the physical address; with paging on, the ranges of virtual addresses as signed integers, and the page fault
of an address outside (20 R131 to R133, R147, R150, R152).
Rests on choices the spec marks as its own (92 D37, D42). -/
def Obligations.AddressRanges : Prop :=
  (∀ (s : State) (xm : Bool) (k : Access) (a : Word), pagingOn s.cr0 = false →
     (¬ a.toNat < 2 ^ (32 + 4 * s.cfg.pas.toNat) →
       translate s xm k a = .error (.exc (.pf
         { fcode := a, pref := 0, plevel := 0, kind := k.code, status := 0x0600 ||| if xm then 0x0003 else 0 }))) ∧
     (a.toNat < 2 ^ (32 + 4 * s.cfg.pas.toNat) → present s.cfg a = false →
       translate s xm k a = .error (.exc (.pf
         { fcode := a, pref := 0, plevel := 0, kind := 0xff, status := 0x0400 ||| if xm then 0x0003 else 0 }))) ∧
     (a.toNat < 2 ^ (32 + 4 * s.cfg.pas.toNat) → present s.cfg a = true → translate s xm k a = .ok a.toNat) ∧
     (a.toNat < 0x10000 → present s.cfg a = true)) ∧
  (∀ (s : State) (xm : Bool) (k : Access) (va : Word), pagingOn s.cr0 = true → virtInRange (ptlOf s.cr0) va = false →
     translate s xm k va = .error (.exc (.pf
       { fcode := va, pref := 0, plevel := 0, kind := k.code, status := 0x0200 ||| if xm then 0x0003 else 0 }))) ∧
  (∀ va : Word,
     (virtInRange 0 va = true ↔ -0x80000000 ≤ va.toInt ∧ va.toInt < 0x80000000) ∧
     (virtInRange 1 va = true ↔ -0x800000000 ≤ va.toInt ∧ va.toInt < 0x800000000) ∧
     (virtInRange 2 va = true ↔ -0x800000000000 ≤ va.toInt ∧ va.toInt < 0x800000000000) ∧
     (virtInRange 3 va = true ↔ -0x80000000000000 ≤ va.toInt ∧ va.toInt < 0x80000000000000) ∧
     virtInRange 4 va = true)

/-- With paging on. An access succeeds exactly if the address is in range, `page` has no flag bit, the walk reaches a level-1 entry that is
not EMPTY, and the rights of the table hold (20 R148); it goes to that entry's page at the same offset. The fault information of every
failing step of the walk, in the order of the checks (R147, R152). A walk step reads the 8-byte entry that the index bits select (R141), as
it is in memory or as the page caches may still hold it (R126), and checks it (R142, R144); XM and SXP are the OR along the walk (R145).
A walk goes by the current PTL, or by that of the last flush (R587).
Rests on choices the spec marks as its own (92 D31, D37, D42) and the model's choices of log 7, 9, 34, 35. -/
def Obligations.PageRights : Prop :=
  (∀ (s : State) (xm : Bool) (k : Access) (va : Word) (p : Nat), pagingOn s.cr0 = true →
    (translate s xm k va = .ok p ↔
      virtInRange (ptlOf s.cr0) va = true ∧ s.page.extractLsb' 0 12 = 0#12 ∧
      ∃ l, walk s xm k va (walkPtl s va) (topLevel (walkPtl s va)) (entryAddress s.page) false false = .ok l ∧
        entryPerm l.entry ≠ 0 ∧ (xm = true → l.xm = true) ∧ (k = .write → entryPerm l.entry = 2) ∧
        (k = .fetch → entryPerm l.entry = 3 ∧ (xm = false → l.sxp = false)) ∧
        let pa := entryAddress l.entry ||| (va &&& 0xfff#64)
        physInRange s.cfg pa = true ∧ present s.cfg pa = true ∧ p = pa.toNat)) ∧
  (∀ (s : State) (xm : Bool) (k : Access) (va : Word),
    let fault (pref : Word) (plevel : Nat) (kind : Byte) (flags : BitVec 16) : Trap := .exc (.pf
      { fcode := va, pref := pref, plevel := BitVec.ofNat 8 plevel, kind := kind, status := flags ||| if xm then 0x0003 else 0 })
    (pagingOn s.cr0 = true → virtInRange (ptlOf s.cr0) va = true →
      (s.page.extractLsb' 0 12 ≠ 0#12 →
        translate s xm k va = .error (fault s.page (topLevel (ptlOf s.cr0)) k.code 0x0100)) ∧
      (s.page.extractLsb' 0 12 = 0#12 →
        let found := walk s xm k va (walkPtl s va) (topLevel (walkPtl s va)) (entryAddress s.page) false false
        (∀ e, found = .error e → translate s xm k va = .error e) ∧
        ∀ l, found = .ok l →
          let pa := (l.entry &&& ~~~0xfff#64) ||| (va &&& 0xfff#64)
          let right := (xm = true → l.xm = true) ∧ (k = .write → l.entry.extractLsb' 0 2 = 2#2) ∧
            (k = .fetch → l.entry.extractLsb' 0 2 = 3#2)
          let prevented := k = .fetch ∧ xm = false ∧ l.sxp = true
          (¬ right → translate s xm k va = .error (fault l.entry 0 k.code 0)) ∧
          (right → prevented → translate s xm k va = .error (fault l.entry 0 k.code 0x0800)) ∧
          (right → ¬ prevented →
            (physInRange s.cfg pa = false → translate s xm k va = .error (fault l.entry 0 k.code 0x0300)) ∧
            (physInRange s.cfg pa = true → present s.cfg pa = false →
              translate s xm k va = .error (fault 0 0 0xff 0))))) ∧
    (∀ (ptl n : Nat) (table : Word), n < 6 →
      let a := table + BitVec.ofNat 64 (8 * levelIndex ptl (n + 1) va)
      let nested : BitVec 16 := if n = 0 then 0 else 0x1000
      let step := walkStep s xm k va table ptl (n + 1)
      (physInRange s.cfg (a + 7) = false → step = .error (fault 0 0 k.code 0x0300)) ∧
      (physInRange s.cfg (a + 7) = true → (∃ i < 8, present s.cfg (a + BitVec.ofNat 64 i) = false) →
        step = .error (fault 0 0 0xff 0)) ∧
      (physInRange s.cfg (a + 7) = true → (∀ i < 8, present s.cfg (a + BitVec.ofNat 64 i) = true) →
        ∃ e, (e = s.mem.readValue (eightBytes a) ∨ e = s.wmem.readValue (eightBytes a)) ∧
          step =
            if e.extractLsb' 5 5 ≠ 0#5 ∨ e.getLsbD 2 ≠ e.getLsbD 3 ∨ (n ≠ 0 ∧ 2 ≤ (e.extractLsb' 0 2).toNat) then
              .error (fault e n k.code (0x0100 ||| nested))
            else if e.extractLsb' 0 2 = 0#2 then .error (fault e n k.code nested)
            else .ok e) ∧
      ∀ x y : Bool,
        (∀ e, step = .error e → walk s xm k va ptl (n + 1) table x y = .error e) ∧
        ∀ e, step = .ok e → walk s xm k va ptl (n + 1) table x y =
          if n = 0 then .ok { entry := e, xm := x || e.getLsbD 2, sxp := y || e.getLsbD 4 }
          else walk s xm k va ptl n (e &&& ~~~0xfff#64) (x || e.getLsbD 2) (y || e.getLsbD 4))) ∧
  (∀ (s : State) (va : Word),
    (walkPtl s va = ptlOf s.cr0 ∨ (walkPtl s va = s.wptl.toNat ∧ virtInRange s.wptl.toNat va = true)) ∧
      walkPtl (flushPages s) va = ptlOf s.cr0) ∧
  (topLevel 0 = 3 ∧ topLevel 1 = 3 ∧ topLevel 2 = 4 ∧ topLevel 3 = 5 ∧ topLevel 4 = 6) ∧
  (∀ va : Word,
    (∀ p, p ≤ 4 → levelIndex p 1 va = va.toNat / 2 ^ 12 % 2 ^ 9 ∧ levelIndex p 2 va = va.toNat / 2 ^ 21 % 2 ^ 9) ∧
    levelIndex 0 3 va = va.toNat / 2 ^ 30 % 2 ^ 2 ∧ levelIndex 1 3 va = va.toNat / 2 ^ 30 % 2 ^ 6 ∧
    (∀ p, 2 ≤ p → p ≤ 4 → levelIndex p 3 va = va.toNat / 2 ^ 30 % 2 ^ 9 ∧ levelIndex p 4 va = va.toNat / 2 ^ 39 % 2 ^ 9) ∧
    levelIndex 3 5 va = va.toNat / 2 ^ 48 % 2 ^ 8 ∧ levelIndex 4 5 va = va.toNat / 2 ^ 48 % 2 ^ 9 ∧
    levelIndex 4 6 va = va.toNat / 2 ^ 57 % 2 ^ 7)

/-- The physical addresses of an access of up to 4096 bytes are as many as its bytes and distinct, and keep the offset in the page; an access
faults exactly if one of its bytes does, with the fault of the lowest such byte (20 R112, R140, R147, R150).
Rests on choices the spec marks as its own (92 D37). -/
def Obligations.AccessAddresses : Prop :=
  (∀ (s : State) (xm : Bool) (k : Access) (va : Word) (n : Nat) (ps : List Nat), n ≤ 4096 →
     translateAll s xm k va n = .ok ps →
     ps.length = n ∧ ps.Nodup ∧ ∀ i (h : i < ps.length), ps[i] % 4096 = (va.toNat + i) % 4096) ∧
  (∀ (s : State) (xm : Bool) (k : Access) (va : Word) (n : Nat) (e : Trap),
     translateAll s xm k va n = .error e ↔
       ∃ j < n, translate s xm k (va + BitVec.ofNat 64 j) = .error e ∧
         ∀ i < j, ∃ p, translate s xm k (va + BitVec.ofNat 64 i) = .ok p)

/-- Data is little-endian: a load of the first `k` bytes of a value of `n` bytes that was stored gives the value's low `8*k` bits; other
bytes are as before (20 R100, R102). So it is with a stored list of bytes of any length: it reads back, other bytes are as before.
Rests on choices the spec marks as its own (92 D26). -/
def Obligations.StoreThenLoad : Prop :=
  (∀ (m : Memory) (ps : List Nat) (v : Word) (k : Nat), ps.Nodup → ps.length ≤ 8 → k ≤ ps.length →
     ((m.writeBytes ps (bytesLE ps.length v.toNat)).readValue (ps.take k)).toNat = v.toNat % 2 ^ (8 * k) ∧
     ∀ a, a ∉ ps → (m.writeBytes ps (bytesLE ps.length v.toNat)).read a = m.read a) ∧
  (∀ (m : Memory) (ps : List Nat) (bs : List Byte), ps.Nodup → bs.length = ps.length →
     (m.writeBytes ps bs).readBytes ps = bs ∧ ∀ a, a ∉ ps → (m.writeBytes ps bs).read a = m.read a)

/-! ### Registers and operands -/

/-- The access checks by register number (10 R30, R39). A machine-specific register the model refuses where its parameter does not make it
storage (10 R68, log 15). For an operand that is read and written UND comes before PROT (30 R209).
Rests on choices the spec marks as its own (92 D2, D24) and the model's choices of log 5, 15. -/
def Obligations.RegisterChecks : Prop :=
  ∀ (s : State) (n : Nat), n < 256 →
    (((19 ≤ n ∧ n ≤ 127) ∨ n = 146 ∨ n = 147 ∨ 155 ≤ n) →
      regReadCheck s n = .error (.exc .und) ∧ regWriteCheck s n = .error (.exc .und)) ∧
    (((128 ≤ n ∧ n ≤ 135) ∨ n = 144 ∨ n = 145 ∨ (148 ≤ n ∧ n ≤ 154)) →
      (s.xm = true → regReadCheck s n = .error (.exc .prot) ∧ regWriteCheck s n = .error (.exc .prot)) ∧
      (s.xm = false → n ≤ 145 ∨ s.cfg.msrBehaviour ≠ .refuse → regReadCheck s n = .ok () ∧ regWriteCheck s n = .ok ()) ∧
      (s.xm = false → 148 ≤ n → s.cfg.msrBehaviour = .refuse →
        regReadCheck s n = .error (.refuse (.machineRegister n)) ∧
        regWriteCheck s n = .error (.refuse (.machineRegister n)))) ∧
    ((136 ≤ n ∧ n ≤ 143) →
      regWriteCheck s n = .error (.exc .und) ∧
      (s.xm = true → s.ciread.getLsbD (n - 136) = false → regReadCheck s n = .error (.exc .prot)) ∧
      (s.xm = false ∨ s.ciread.getLsbD (n - 136) = true → regReadCheck s n = .ok ())) ∧
    (∀ sz (r : BitVec 8), r.toNat = n → opUpdateCheck s (.reg sz r) = regWriteCheck s n) ∧
    ((n = 16 ∨ n = 17 ∨ n = 18) → regReadCheck s n = .ok () ∧ regWriteCheck s n = .error (.exc .und)) ∧
    (n < 16 → regReadCheck s n = .ok () ∧ regWriteCheck s n = .ok ())

/-- `WriteFlags`, bit by bit: bits 5 to 63 keep their value, and so does, in program mode, a bit set in `flprotect` (10 R34).
Rests on choices the spec marks as its own (92 D25). -/
def Obligations.WriteFlags : Prop :=
  ∀ (s : State) (v : Word) (i : Nat),
    (writtenFlags s v).getLsbD i =
      if i < 5 ∧ ¬ (s.xm = true ∧ s.flprotect.getLsbD i = true) then v.getLsbD i else s.flags.getLsbD i

/-- `WriteMode`: in program mode bits 63 to 32 are kept and nothing is raised; in supervisor mode a value whose bits 32 and 33 differ is
PROT. The checks of a write to `cr0` and to `sccr` (10 R37, R55, R60).
Rests on choices the spec marks as its own (92 D22, D23) and the model's choices of log 30. -/
def Obligations.ModeAndControlWrites : Prop :=
  (∀ (s : State) (v : Word),
     (s.xm = true → modeCheck s v = .ok () ∧
       ∀ i, (writtenMode s v).getLsbD i = if i < 32 then v.getLsbD i else s.mode.getLsbD i) ∧
     (s.xm = false → writtenMode s v = v ∧
       modeCheck s v = if v.getLsbD 32 = v.getLsbD 33 then .ok () else .error (.exc .prot))) ∧
  (∀ (s : State) (v : Word),
     ((∃ i, v.getLsbD i = true ∧ i ∉ [0, 1, 3, 4, 5]) → cr0Check s v = .error (.exc .und)) ∧
     ((∀ i, v.getLsbD i = true → i ∈ [0, 1, 3, 4, 5]) →
       (s.cfg.vas.val < (v.extractLsb' 3 3).toNat → cr0Check s v = .error (.exc .und)) ∧
       ((v.extractLsb' 3 3).toNat ≤ s.cfg.vas.val →
         (v.getLsbD 0 = true → s.cr0.getLsbD 0 = false → s.page.extractLsb' 0 12 ≠ 0#12 →
           ∃ i, cr0Check s v = .error (.exc (.pf i)) ∧ i.pref = s.page ∧ i.status = 0x0100) ∧
         (v.getLsbD 0 = false ∨ s.cr0.getLsbD 0 = true ∨ s.page.extractLsb' 0 12 = 0#12 → cr0Check s v = .ok ()))) ∧
     ((∃ i, i ≠ 1 ∧ v.getLsbD i ≠ s.sccr.getLsbD i) → sccrCheck s v = .error (.exc .und)) ∧
     ((∀ i, i ≠ 1 → v.getLsbD i = s.sccr.getLsbD i) → sccrCheck s v = .ok ()))

/-- Writing a destination: a register gets the low bits and zeros above, and every other register and the whole rest of the state are kept,
but that the machine-specific registers hold what the machine makes of the write where `MsrBehaviour` says so (log 15), and that writing
`page`, or `cr0` with a change of PG, also flushes the page caches; memory gets the low bytes, every other byte and the whole rest of the
state are kept (30 R206, R207, 10 R69, 20 R125).
Rests on the model's choices of log 15. -/
def Obligations.WriteDestination : Prop :=
  ∀ (s : State) (v next : Word),
    (∀ n bits, bits ≤ 64 →
      ((n < 16 ∨ (128 ≤ n ∧ n ≤ 135) ∨ n = 144 ∨ n = 145 ∨ (148 ≤ n ∧ n ≤ 154)) →
        let t := putDest s (.reg n bits) v
        (n < 148 ∨ s.cfg.msrBehaviour ≠ .machine → (readReg t next n).toNat = v.toNat % 2 ^ bits) ∧
        (∀ m, m < 256 → m ≠ n → n < 148 ∨ m < 148 ∨ 154 < m ∨ s.cfg.msrBehaviour ≠ .machine →
          readReg t next m = readReg s next m) ∧
        (∀ k : Fin 7, n = 148 + k.val → s.cfg.msrBehaviour = .machine → ∃ w : Word, w.toNat = v.toNat % 2 ^ bits ∧
          t.msr = Config.msrWrite s.freeCtr k w s.msr ∧ readReg t next n = Config.msrRead s.freeCtr k t.msr) ∧
        t = { s with
          gpr := t.gpr, cr0 := t.cr0, page := t.page, flprotect := t.flprotect, scdp := t.scdp, scsp := t.scsp, sccr := t.sccr
          itabp := t.itabp, ciread := t.ciread, fcode := t.fcode, pfcharp := t.pfcharp, msr := t.msr
          wmem := if n = 129 ∨ (n = 128 ∧ pagingOn t.cr0 ≠ pagingOn s.cr0) then s.mem else s.wmem
          wptl := if n = 129 ∨ (n = 128 ∧ pagingOn t.cr0 ≠ pagingOn s.cr0) then ptlBits t.cr0 else s.wptl })) ∧
    (∀ ps, ps.Nodup → ps.length ≤ 8 →
      (putDest s (.mem ps) v).mem.readBytes ps = bytesLE ps.length v.toNat ∧ SameMemoryBut ps s (putDest s (.mem ps) v) ∧
      putDest s (.mem ps) v = { s with mem := (putDest s (.mem ps) v).mem })

/-- Reading an operand: the value has the operand's size, and is, by form, the low bits of the register, the immediate (sign-extended and
added to `next` when ip-relative), or the little-endian bytes at the effective address (30 R200, R202, R203). Which register each number is,
and what the CPUInfo registers hold, `cpuex2` bit by bit (10 R30, R63 to R65).
Rests on choices the spec marks as its own (92 D1, D12). -/
def Obligations.ReadOperand : Prop :=
  ∀ (s : State) (next : Word),
    (∀ a v, loadOp s next a = .ok v → v.toNat < 2 ^ bitsOf a) ∧
    (∀ sz r, ∃ v, loadOp s next (.reg sz r) = .ok v ∧ v.toNat = (readReg s next r.toNat).toNat % 2 ^ (8 * sz.bytes)) ∧
    (∀ i : BitVec 12, ∃ v w, loadOp s next (.short false i) = .ok v ∧ v.toNat = i.toNat ∧
      loadOp s next (.short true i) = .ok w ∧ w = next + BitVec.ofInt 64 i.toInt) ∧
    (∀ i : BitVec 16, ∃ v w, loadOp s next (.long false (.i16 i)) = .ok v ∧ v.toNat = i.toNat ∧
      loadOp s next (.long true (.i16 i)) = .ok w ∧ w = next + BitVec.ofInt 64 i.toInt) ∧
    (∀ i : BitVec 32, ∃ v w, loadOp s next (.long false (.i32 i)) = .ok v ∧ v.toNat = i.toNat ∧
      loadOp s next (.long true (.i32 i)) = .ok w ∧ w = next + BitVec.ofInt 64 i.toInt) ∧
    (∀ i : BitVec 64, loadOp s next (.long false (.i64 i)) = .ok i ∧ loadOp s next (.long true (.i64 i)) = .ok (next + i)) ∧
    (∀ a ps, isMem a = true → translateAll s s.xm .read (addrOf s next a) (bitsOf a / 8) = .ok ps →
      ∃ v, loadOp s next a = .ok v ∧ v.toNat = valueLE (s.mem.readBytes ps)) ∧
    (∀ o k sz b, addrOf s next (.ind (.num o) k sz b) = getGpr s b + BitVec.ofNat 64 (o.toNat * 2 ^ k.toNat)) ∧
    (∀ o k sz b, addrOf s next (.ind (.gpr o) k sz b) = getGpr s b + BitVec.ofNat 64 ((getGpr s o).toNat * 2 ^ k.toNat)) ∧
    (∀ i : BitVec 16, ∀ sz, addrOf s next (.mref false (.i16 i) sz) = BitVec.ofNat 64 i.toNat ∧
      addrOf s next (.mref true (.i16 i) sz) = next + BitVec.ofInt 64 i.toInt) ∧
    (∀ i : BitVec 32, ∀ sz, addrOf s next (.mref false (.i32 i) sz) = BitVec.ofNat 64 i.toNat ∧
      addrOf s next (.mref true (.i32 i) sz) = next + BitVec.ofInt 64 i.toInt) ∧
    (∀ i : BitVec 64, ∀ sz, addrOf s next (.mref false (.i64 i) sz) = i ∧ addrOf s next (.mref true (.i64 i) sz) = next + i) ∧
    (∀ n : Fin 16, readReg s next n.val = s.gpr[n]) ∧
    (∀ p ∈ [(16, next), (17, s.flags), (18, s.mode), (128, s.cr0), (129, s.page), (130, s.flprotect), (131, s.scdp), (132, s.scsp),
        (133, s.sccr), (134, s.itabp), (135, s.ciread), (136, s.cfg.cpuidlo), (137, s.cfg.cpuidhi), (139, 0), (140, 0), (141, 0),
        (142, 0), (143, s.cfg.mscpuex), (144, s.fcode), (145, s.pfcharp)], readReg s next p.1 = p.2) ∧
    (∀ i, (readReg s next 138).getLsbD i =
      if i = 0 then true
      else if 2 ≤ i ∧ i ≤ 4 then s.cfg.pas.getLsbD (i - 2)
      else if 5 ≤ i ∧ i ≤ 7 then s.cfg.vas.val.testBit (i - 5)
      else s.cfg.cpuex2Other.getLsbD i) ∧
    (∀ k : Fin 7, s.cfg.msrBehaviour ≠ .machine → readReg s next (148 + k.val) = s.msr[k])

/-! ### Flags -/

/-- The flags of addition and subtraction at size `d`: C is the carry, or the borrow, V as the rules define it, Z and N the result's; P
and the bits above are kept. V says that the exact signed result does not fit (10 R46, R47, R48, 90 C5). -/
def Obligations.AddSubFlags : Prop :=
  (∀ (f x y r : Word) (d : Nat), d ∈ [8, 12, 16, 32, 64] → x.toNat < 2 ^ d → y.toNat < 2 ^ d →
     (AluOp.add.ResultIs d x y r →
       let fl := aluFlags .add f d x y r
       flagC fl = decide (2 ^ d ≤ x.toNat + y.toNat) ∧
       flagV fl = (x.getLsbD (d - 1) == y.getLsbD (d - 1) && r.getLsbD (d - 1) != x.getLsbD (d - 1)) ∧
       ZNOf fl r d ∧ KeepsFlags 0x0f f fl) ∧
     (AluOp.sub.ResultIs d x y r →
       let fl := aluFlags .sub f d x y r
       flagC fl = decide (x.toNat < y.toNat) ∧
       flagV fl = (x.getLsbD (d - 1) != y.getLsbD (d - 1) && r.getLsbD (d - 1) != x.getLsbD (d - 1)) ∧
       ZNOf fl r d ∧ KeepsFlags 0x0f f fl)) ∧
  (∀ (f x y r : Word) (d : Nat), d ∈ [8, 12, 16, 32, 64] → x.toNat < 2 ^ d → y.toNat < 2 ^ d →
     (AluOp.add.ResultIs d x y r →
       (flagV (aluFlags .add f d x y r) = true ↔
         signedValue d x + signedValue d y < -(2 ^ (d - 1) : Int) ∨ (2 ^ (d - 1) : Int) ≤ signedValue d x + signedValue d y)) ∧
     (AluOp.sub.ResultIs d x y r →
       (flagV (aluFlags .sub f d x y r) = true ↔
         signedValue d x - signedValue d y < -(2 ^ (d - 1) : Int) ∨ (2 ^ (d - 1) : Int) ≤ signedValue d x - signedValue d y)))

/-- Bitwise operations clear C and V; Z, N, and where an instruction writes it P, are the result's, and the other bits are kept
(10 R46, R49). -/
def Obligations.LogicAndResultFlags : Prop :=
  ∀ (f x y r : Word) (d : Nat), d ∈ [8, 12, 16, 32, 64] →
    (∀ op ∈ [AluOp.and, .or, .xor],
      let fl := aluFlags op f d x y r
      flagC fl = false ∧ flagV fl = false ∧ ZNOf fl r d ∧ KeepsFlags 0x0f f fl) ∧
    (ZNOf (setZN f r d) r d ∧ KeepsFlags 0x0a f (setZN f r d)) ∧
    (ZNOf (setZNP f r d) r d ∧ KeepsFlags 0x1a f (setZNP f r d) ∧
      flagP (setZNP f r d) = decide (((List.range 64).filter fun i => r.getLsbD i).length % 2 = 1))

/-- The condition codes; code 15 - cc is the negation of code cc (45 R425). -/
def Obligations.ConditionCodes : Prop :=
  ∀ f : Word,
    let C := f.getLsbD 0; let Z := f.getLsbD 1; let V := f.getLsbD 2; let N := f.getLsbD 3; let P := f.getLsbD 4
    (∀ p ∈ [((0 : BitVec 4), P), (1, C), (2, V), (3, Z), (4, N != V), (5, (N != V) || Z), (6, C || Z), (7, N), (8, !N),
        (9, !C && !Z), (10, (N == V) && !Z), (11, N == V), (12, !Z), (13, !V), (14, !C), (15, !P)],
      condHolds (Cond.ofCode p.1) f = p.2) ∧
    ∀ c : BitVec 4, condHolds (Cond.ofCode (15 - c)) f = !condHolds (Cond.ofCode c) f

/-! ### Arithmetic and moves -/

/-- Opcodes 0x000 and 0xfff, machine-specific opcodes that the machine has not, and a prefix with a bad follower raise UND in either mode;
a machine-specific opcode that the machine has is PROT in program mode, and in supervisor mode has the effect the machine gives it, or
raises its exception: flags, bytes stored in order where there is memory, a flush of the caches, a halt, a branch to a checked target,
and register writes, made in order, each with the checks of an operand. An
operand constraint that is violated is UND, in supervisor mode for the supervisor instructions (30 R209, 40 R240, R241, 41 R280, R281,
R283, R284, R296, R300, R314, R316, 42 R331, 43 R350, R362, R371, R379, 44 R402 to R404, 46 R475, R484, R499, R500).
Rests on choices the spec marks as its own (92 D2, D15, D16, D17, D18, D30, D36, D39) and the model's choices of log 23. -/
def Obligations.UndefinedTraps : Prop :=
  (∀ (s : State), (∀ h, exec (.und000 h) s = .next (takeException s .und)) ∧
     (∀ h, exec (.undFff h) s = .next (takeException s .und)) ∧
     (∀ lo h, ((∀ m ∈ s.cfg.machInstr, m.lo ≠ lo) → exec (.machineSpecific lo h) s = .next (takeException s .und)) ∧
       ((∃ m ∈ s.cfg.machInstr, m.lo = lo) → s.xm = true → exec (.machineSpecific lo h) s = .next (takeException s .prot)) ∧
       (∀ m, machineOpcode s.cfg lo = some m → s.xm = false →
         exec (.machineSpecific lo h) s =
           match Config.machineEffect lo h s with
           | .ok e => finish s (machineApply s (s.ip + BitVec.ofNat 64 (2 + 2 * m.units.val)) e)
           | .error x => .next (takeException s x))) ∧
     (∀ next e, e.registers = [] → e.flushes = false →
       let m := machineStores s.cfg s.mem e.stores
       let u := { s with mem := m, flags := writtenFlags s e.flags, halted := e.halts }
       (∀ a, (∀ c ∈ e.stores, c.1.toNat ≠ a) → m.read a = s.mem.read a) ∧
       (e.target = none → machineApply s next e = .ok { u with ip := next }) ∧
       (∀ t, e.target = some t → checkTarget u u.xm t = .ok () → machineApply s next e = .ok (branchTo u t))) ∧
     (∀ next e n v l x, e.registers = (n, v) :: l →
       (regWriteCheck s n.toNat = .error x → machineApply s next e = .error x) ∧
       (regWriteCheck s n.toNat = .ok () → regValueCheck s n.toNat v = .error x → machineApply s next e = .error x) ∧
       (regWriteCheck s n.toNat = .ok () → regValueCheck s n.toNat v = .ok () →
         machineApply s next e = machineApply (putReg s n.toNat v) next { e with registers := l })) ∧
     (∀ next e, e.registers = [] → e.flushes = true → e.target = none →
       let m := machineStores s.cfg s.mem e.stores
       machineApply s next e = .ok { s with
         mem := m, imem := m, wmem := m, wptl := ptlBits s.cr0, flags := writtenFlags s e.flags, halted := e.halts, ip := next }) ∧
     (∀ l a b, let m := machineStores s.cfg s.mem (l ++ [(a, b)])
       (physInRange s.cfg a = true → present s.cfg a = true →
         m.read a.toNat = b ∧ ∀ k, k ≠ a.toNat → m.read k = (machineStores s.cfg s.mem l).read k) ∧
       (physInRange s.cfg a = false ∨ present s.cfg a = false → m = machineStores s.cfg s.mem l)) ∧
     (∀ cc w, exec (.repbi cc (.invalid w)) s = .next (takeException s .und) ∧
       exec (.repbc cc (.invalid w)) s = .next (takeException s .und))) ∧
  (∀ (s : State) (l f : Bool) (a b c : Operand) (g : BitVec 4),
     (aluShape l a b = false →
       ∀ k ∈ [Instr.add, .sub, .and, .or, .xor, .lsh, .rsh, .arsh, .lshc, .rshc, .lrot, .rrot],
         exec (k l f a b) s = .next (takeException s .und)) ∧
     (isWritable a = false →
       ∀ k ∈ [Instr.movrFromGpr, .addrGprSrc, .subrGprSrc, .andrGprSrc, .orrGprSrc, .xorrGprSrc],
         exec (k g a) s = .next (takeException s .und)) ∧
     (movShape a b = false → exec (.mov a b) s = .next (takeException s .und)) ∧
     (leaShape a b = false → exec (.lea a b) s = .next (takeException s .und)) ∧
     (isMem a = false → ∀ i ∈ [Instr.lear g a, .stogpr a, .stoar a, .rstogpr a, .rstoar a],
       exec i s = .next (takeException s .und)) ∧
     (isMem a = false → s.xm = false → ∀ i ∈ [Instr.dflush a, .iflush a, .storegf a, .rstregf a],
       exec i s = .next (takeException s .und)) ∧
     (popShape a = false → exec (.pop a) s = .next (takeException s .und)) ∧
     (movsxShape a b = false → exec (.movsx f a b) s = .next (takeException s .und)) ∧
     (bswapShape a b = false → exec (.bswap f a b) s = .next (takeException s .und)) ∧
     (unaryShape l a = false → exec (.bnot l f a) s = .next (takeException s .und) ∧
       exec (.neg l f a) s = .next (takeException s .und)) ∧
     (cmpShape a b = false → exec (.cmp a b) s = .next (takeException s .und) ∧
       exec (.test a b) s = .next (takeException s .und)) ∧
     (xchgShape a b = false → exec (.xchg a b) s = .next (takeException s .und) ∧
       exec (.cmpxchg a b c) s = .next (takeException s .und) ∧ exec (.wcmpxchg a b c) s = .next (takeException s .und)))

/-- `add`, `sub`, `and`, `or`, `xor`: the first operand receives the result at its size; with `f` the flags are kept, else Z and N follow
the result, P is kept, and C and V follow the rules where the second source fits (40 R241 to R247). What the check of an operand, a load or
a store raises ends the instruction, which does nothing else (30 R209, 60 R525, R526).
Rests on choices the spec marks as its own (92 D2, D9) and the model's choices of log 4, 5, 6. -/
def Obligations.AluResult : Prop :=
  ∀ p ∈ ([(.add, .add), (.sub, .sub), (.and, .and), (.or, .or), (.xor, .xor)] :
      List ((Bool → Bool → Operand → Operand → Instr) × AluOp)),
    ∀ (l f : Bool) (a b : Operand) (s : State), aluShape l a b = true → let n := nextIp s [a, b]
    (∀ (x y r : Word) (dst : Dest), Reads s n a x → Reads s n b y → p.2.ResultIs (bitsOf a) x y r → Accepts s n a dst r →
      ∃ fl, exec (p.1 l f a b) s = .next { putDest s dst r with flags := fl, ip := n } ∧
        (f = true → fl = s.flags) ∧
        (f = false → ZNOf fl r (bitsOf a) ∧ KeepsFlags 0x0f s.flags fl ∧
          (y.toNat < 2 ^ bitsOf a → fl = aluFlags p.2 s.flags (bitsOf a) x y r))) ∧
    (∀ t, Raises [opUpdateCheck s a, opReadCheck s b, attempt (loadOp s n a), attempt (loadOp s n b), attempt (destOf s n a)] t ∨
        (∃ x y r, Reads s n a x ∧ Reads s n b y ∧ p.2.ResultIs (bitsOf a) x y r ∧ Rejects s n a r t) →
      Abandons (p.1 l f a b) s t)

/-- The gpr forms of the ALU instructions: the gpr at the explicit operand's size (64 bits beside an immediate) is the destination, or the
second source (43 R369 to R371, 30 R211). What the check of an operand, a load or a store raises ends the instruction, which does nothing
else (30 R209, 60 R525, R526).
Rests on choices the spec marks as its own (92 D2, D13) and the model's choices of log 5. -/
def Obligations.AluGprResult : Prop :=
  (∀ p ∈ ([(.addrGprDst, .add), (.subrGprDst, .sub), (.andrGprDst, .and), (.orrGprDst, .or), (.xorrGprDst, .xor)] :
      List ((BitVec 4 → Operand → Instr) × AluOp)),
    ∀ (g : BitVec 4) (a : Operand) (s : State) (x y r : Word), Reads s (nextIp s [a]) a y →
      x.toNat = (getGpr s g).toNat % 2 ^ (if isImm a then 64 else bitsOf a) →
      p.2.ResultIs (if isImm a then 64 else bitsOf a) x y r →
      exec (p.1 g a) s = .next { setGpr s g r with
        flags := aluFlags p.2 s.flags (if isImm a then 64 else bitsOf a) x y r, ip := nextIp s [a] }) ∧
  (∀ k ∈ [Instr.addrGprDst, .subrGprDst, .andrGprDst, .orrGprDst, .xorrGprDst], ∀ (g : BitVec 4) (a : Operand) (s : State) (t : Trap),
    Raises [opReadCheck s a, attempt (loadOp s (nextIp s [a]) a)] t → Abandons (k g a) s t) ∧
  (∀ p ∈ ([(.addrGprSrc, .add), (.subrGprSrc, .sub), (.andrGprSrc, .and), (.orrGprSrc, .or), (.xorrGprSrc, .xor)] :
      List ((BitVec 4 → Operand → Instr) × AluOp)),
    ∀ (g : BitVec 4) (a : Operand) (s : State), isWritable a = true → let n := nextIp s [a]
    (∀ (x y r : Word), Reads s n a x → y.toNat = (getGpr s g).toNat % 2 ^ bitsOf a → p.2.ResultIs (bitsOf a) x y r →
      (∀ dst, Accepts s n a dst r →
        exec (p.1 g a) s = .next { putDest s dst r with flags := aluFlags p.2 s.flags (bitsOf a) x y r, ip := n }) ∧
      ∀ t, Rejects s n a r t → Abandons (p.1 g a) s t) ∧
    (∀ t, Raises [opUpdateCheck s a, attempt (loadOp s n a), attempt (destOf s n a)] t → Abandons (p.1 g a) s t))

/-- `mul` and `imul`: the low and the high half of the exact product, C (unsigned) or V (signed) says whether it fits, Z and N are those
of the low half, P is kept; with `f` the flags are kept (40 R250, R251, R253).
Rests on choices the spec marks as its own (92 D11) and the model's choices of log 4. -/
def Obligations.MultiplyResult : Prop :=
  ∀ (s : State) (ss : Size) (f : Bool),
    let d := 8 * ss.bytes
    let p := (getGpr s 0).toNat % 2 ^ d * ((getGpr s 3).toNat % 2 ^ d)
    let q := signedValue d (getGpr s 0) * signedValue d (getGpr s 3)
    (∃ lo hi fl, exec (.mul ss f) s =
        .next { setGpr (setGpr s 0 lo) 3 hi with flags := fl, ip := s.ip + 2 } ∧
      lo.toNat = p % 2 ^ d ∧ hi.toNat = p / 2 ^ d ∧ (f = true → fl = s.flags) ∧
      (f = false → flagC fl = decide (2 ^ d ≤ p) ∧ ZNOf fl lo d ∧ KeepsFlags 0x0f s.flags fl)) ∧
    (∃ lo hi fl, exec (.imul ss f) s =
        .next { setGpr (setGpr s 0 lo) 3 hi with flags := fl, ip := s.ip + 2 } ∧
      (lo.toNat : Int) = q % (2 ^ d : Int) ∧ (hi.toNat : Int) = q / (2 ^ d : Int) % (2 ^ d : Int) ∧
      (f = true → fl = s.flags) ∧
      (f = false → (flagV fl = true ↔ q < -(2 ^ (d - 1) : Int) ∨ (2 ^ (d - 1) : Int) ≤ q) ∧ ZNOf fl lo d ∧
        KeepsFlags 0x0f s.flags fl))

/-- `div` and `idiv` by a divisor other than 0 at the operation's size: quotient in r0, remainder in r3, truncated when the quotient does
not fit, which C or V says; a divisor of 0 raises DIV (40 R252, R254, 60 R517).
Rests on choices the spec marks as its own (92 D11) and the model's choices of log 4. -/
def Obligations.DivideResult : Prop :=
  ∀ (s : State) (ss : Size) (w f : Bool),
    let d := 8 * ss.bytes
    let m := (getGpr s 3).toNat % 2 ^ d
    let n := (if w then (getGpr s 1).toNat % 2 ^ d * 2 ^ d else 0) + (getGpr s 0).toNat % 2 ^ d
    let ms := signedValue d (getGpr s 3)
    let ns : Int := if w then signedValue d (getGpr s 1) * (2 ^ d : Int) + (((getGpr s 0).toNat % 2 ^ d : Nat) : Int)
      else signedValue d (getGpr s 0)
    (m = 0 → exec (.div ss w f) s = .next (takeException s .div) ∧ exec (.idiv ss w f) s = .next (takeException s .div)) ∧
    (m ≠ 0 → ∃ q r fl, exec (.div ss w f) s =
        .next { setGpr (setGpr s 0 q) 3 r with flags := fl, ip := s.ip + 2 } ∧
      q.toNat = n / m % 2 ^ d ∧ r.toNat = n % m ∧ (f = true → fl = s.flags) ∧
      (f = false → flagC fl = decide (2 ^ d ≤ n / m) ∧ ZNOf fl q d ∧ KeepsFlags 0x0f s.flags fl)) ∧
    (m ≠ 0 → ∃ q r fl, exec (.idiv ss w f) s =
        .next { setGpr (setGpr s 0 q) 3 r with flags := fl, ip := s.ip + 2 } ∧
      (q.toNat : Int) = ns.tdiv ms % (2 ^ d : Int) ∧ (r.toNat : Int) = ns.tmod ms % (2 ^ d : Int) ∧
      (f = true → fl = s.flags) ∧
      (f = false → (flagV fl = true ↔ ns.tdiv ms < -(2 ^ (d - 1) : Int) ∨ (2 ^ (d - 1) : Int) ≤ ns.tdiv ms) ∧
        ZNOf fl q d ∧ KeepsFlags 0x0f s.flags fl))

/-- `mov` and its gpr forms: the source zero-extended or truncated to the destination; only Z and N are written. `lea` and its gpr form
store the 64-bit address, truncated to the destination, access no memory and keep the flags (41 R280 to R284). What the check of an operand,
a load or a store raises ends the instruction, which does nothing else (30 R209, 60 R525, R526).
Rests on choices the spec marks as its own (92 D2, D13, D15, D36). -/
def Obligations.MoveAndAddressResult : Prop :=
  (∀ (s : State) (a b : Operand) (g : BitVec 4) (v r : Word) (dst : Dest),
     (movShape a b = true → Reads s (nextIp s [a, b]) b v → r.toNat = v.toNat % 2 ^ bitsOf a →
       Accepts s (nextIp s [a, b]) a dst r →
       ∃ fl, exec (.mov a b) s = .next { putDest s dst r with flags := fl, ip := nextIp s [a, b] } ∧
         ZNOf fl r (bitsOf a) ∧ KeepsFlags 0x0a s.flags fl) ∧
     (Reads s (nextIp s [a]) a v →
       ∃ fl, exec (.movrToGpr g a) s = .next { setGpr s g v with flags := fl, ip := nextIp s [a] } ∧
         ZNOf fl v (if isImm a then 64 else bitsOf a) ∧ KeepsFlags 0x0a s.flags fl) ∧
     (isWritable a = true → r.toNat = (getGpr s g).toNat % 2 ^ bitsOf a → Accepts s (nextIp s [a]) a dst r →
       ∃ fl, exec (.movrFromGpr g a) s = .next { putDest s dst r with flags := fl, ip := nextIp s [a] } ∧
         ZNOf fl r (bitsOf a) ∧ KeepsFlags 0x0a s.flags fl)) ∧
  (∀ (s : State) (a b : Operand) (g : BitVec 4) (dst : Dest),
     (movShape a b = true → let n := nextIp s [a, b]
       ∀ t, Raises [opWriteCheck s a, opReadCheck s b, attempt (loadOp s n b), attempt (destOf s n a)] t ∨
           (∃ v r, Reads s n b v ∧ r.toNat = v.toNat % 2 ^ bitsOf a ∧ Rejects s n a r t) → Abandons (.mov a b) s t) ∧
     (∀ t, Raises [opReadCheck s a, attempt (loadOp s (nextIp s [a]) a)] t → Abandons (.movrToGpr g a) s t) ∧
     (isWritable a = true → let n := nextIp s [a]
       ∀ t, Raises [opWriteCheck s a, attempt (destOf s n a)] t ∨
           (∃ r, r.toNat = (getGpr s g).toNat % 2 ^ bitsOf a ∧ Rejects s n a r t) → Abandons (.movrFromGpr g a) s t) ∧
     (leaShape a b = true → let n := nextIp s [a, b]
       ∀ t, Raises [opWriteCheck s a, attempt (destOf s n a)] t ∨ Rejects s n a (addrOf s n b) t → Abandons (.lea a b) s t) ∧
     (leaShape a b = true → Accepts s (nextIp s [a, b]) a dst (addrOf s (nextIp s [a, b]) b) →
       exec (.lea a b) s = .next { putDest s dst (addrOf s (nextIp s [a, b]) b) with ip := nextIp s [a, b] } ∧
       ∃ n, dst = .reg n (bitsOf a)) ∧
     (isMem a = true → exec (.lear g a) s = .next { setGpr s g (addrOf s (nextIp s [a]) a) with ip := nextIp s [a] }))

/-- `movsx` sign-extends from the source's size, or truncates; `bswap` reverses the bytes; with `f` the flags are kept, else Z and N are
written (41 R314 to R316). What the check of an operand, a load or a store raises ends the instruction, which does nothing else (30 R209, 60
R525, R526).
Rests on choices the spec marks as its own (92 D2) and the model's choices of log 40. -/
def Obligations.ExtendAndSwapResult : Prop :=
  ∀ (s : State) (f : Bool) (a b : Operand),
    let n := nextIp s [a, b]
    let checks := [opWriteCheck s a, opReadCheck s b, attempt (loadOp s n b), attempt (destOf s n a)]
    (∀ v r, Reads s n b v →
      (movsxShape a b = true → (r.toNat : Int) = signedValue (bitsOf b) v % (2 ^ bitsOf a : Int) →
        (∀ dst, Accepts s n a dst r → ∃ fl, exec (.movsx f a b) s = .next { putDest s dst r with flags := fl, ip := n } ∧
          (f = true → fl = s.flags) ∧ (f = false → ZNOf fl r (bitsOf a) ∧ KeepsFlags 0x0a s.flags fl)) ∧
        ∀ t, Rejects s n a r t → Abandons (.movsx f a b) s t) ∧
      (bswapShape a b = true → r.toNat < 2 ^ bitsOf a →
        bytesLE (bitsOf a / 8) r.toNat = (bytesLE (bitsOf a / 8) v.toNat).reverse →
        (∀ dst, Accepts s n a dst r → ∃ fl, exec (.bswap f a b) s = .next { putDest s dst r with flags := fl, ip := n } ∧
          (f = true → fl = s.flags) ∧ (f = false → ZNOf fl r (bitsOf a) ∧ KeepsFlags 0x0a s.flags fl)) ∧
        ∀ t, Rejects s n a r t → Abandons (.bswap f a b) s t)) ∧
    (∀ t, Raises checks t → (movsxShape a b = true → Abandons (.movsx f a b) s t) ∧
      (bswapShape a b = true → Abandons (.bswap f a b) s t))

/-- `nop` with any operands, and `fence` on the one CPU, only advance `ip` by their length (41 R290, 44 R406).
Rests on choices the spec marks as its own (92 D35) and the model's choices of log 21. -/
def Obligations.NopFence : Prop :=
  ∀ (s : State) (a b c : Operand),
    exec .nop0 s = .next { s with ip := s.ip + BitVec.ofNat 64 (encode .nop0).length } ∧
    exec (.nop1 a) s = .next { s with ip := s.ip + BitVec.ofNat 64 (encode (.nop1 a)).length } ∧
    exec (.nop2 a b) s = .next { s with ip := s.ip + BitVec.ofNat 64 (encode (.nop2 a b)).length } ∧
    exec (.nop3 a b c) s = .next { s with ip := s.ip + BitVec.ofNat 64 (encode (.nop3 a b c)).length } ∧
    exec .fence s = .next { s with ip := s.ip + BitVec.ofNat 64 (encode .fence).length }

/-! ### Stack and bulk storage -/

/-- `push` and its gpr form store the zero-extended 8 bytes below `sp`, the old `sp` if that is the operand, and lower `sp` by 8; every
other byte is kept. `pop` and its gpr form load 8 bytes at `sp` and raise `sp` by 8 unless they load `sp` itself; `flags` is written through
its masked write (41 R294 to R298). What the check of an operand, a load or a store raises ends the instruction, which does nothing else (30
R209, 60 R525, R526).
Rests on choices the spec marks as its own (92 D2, D16). -/
def Obligations.PushPopResult : Prop :=
  (∀ (s : State) (ps : List Nat), translateAll s s.xm .write (getGpr s 7 - 8) 8 = .ok ps →
     (∀ a v, Reads s (nextIp s [a]) a v →
       exec (.push a) s = .next { setGpr s 7 (getGpr s 7 - 8) with
         mem := s.mem.writeBytes ps (bytesLE 8 v.toNat), ip := nextIp s [a] }) ∧
     (∀ r, exec (.pushr r) s = .next { setGpr s 7 (getGpr s 7 - 8) with
         mem := s.mem.writeBytes ps (bytesLE 8 (getGpr s r).toNat), ip := s.ip + 2 }) ∧
     ∀ v : Word, (s.mem.writeBytes ps (bytesLE 8 v.toNat)).readValue ps = v ∧
       ∀ a, a ∉ ps → (s.mem.writeBytes ps (bytesLE 8 v.toNat)).read a = s.mem.read a) ∧
  (∀ (s : State) (v : Word), memRead s (getGpr s 7) 8 = .ok v →
     (∀ a dst, popShape a = true → a ≠ .reg .b64 17 → a ≠ .reg .b64 7 → Accepts s (nextIp s [a]) a dst v →
       exec (.pop a) s = .next { setGpr (putDest s dst v) 7 (getGpr s 7 + 8) with ip := nextIp s [a] }) ∧
     exec (.pop (.reg .b64 7)) s = .next { setGpr s 7 v with ip := s.ip + 4 } ∧
     exec (.pop (.reg .b64 17)) s =
       .next { setGpr s 7 (getGpr s 7 + 8) with flags := writtenFlags s v, ip := s.ip + 4 } ∧
     (∀ r, r ≠ 7 → exec (.popr r) s = .next { setGpr (setGpr s 7 (getGpr s 7 + 8)) r v with ip := s.ip + 2 }) ∧
     exec (.popr 7) s = .next { setGpr s 7 v with ip := s.ip + 2 } ∧
     (∀ a t, popShape a = true → a ≠ .reg .b64 17 → Rejects s (nextIp s [a]) a v t → Abandons (.pop a) s t)) ∧
  (∀ (s : State) (a : Operand) (r : BitVec 4) (t : Trap),
     let stored := attempt (translateAll s s.xm .write (getGpr s 7 - 8) 8)
     let loaded := attempt (memRead s (getGpr s 7) 8)
     (Raises [opReadCheck s a, attempt (loadOp s (nextIp s [a]) a), stored] t → Abandons (.push a) s t) ∧
     (Raises [stored] t → Abandons (.pushr r) s t) ∧
     (popShape a = true → a ≠ .reg .b64 17 → Raises [opWriteCheck s a, loaded, attempt (destOf s (nextIp s [a]) a)] t →
       Abandons (.pop a) s t) ∧
     (Raises [loaded] t → Abandons (.pop (.reg .b64 17)) s t ∧ Abandons (.popr r) s t))

/-- `stogpr`, `stoar`, `pushgpr`, `pushar` store the images of r0..r15 or of registers 0..31 (`ip` as the next instruction's address,
reserved registers as 0) in one access, and the push forms then lower `sp`; every other byte is kept (41 R300 to R303, R306, R307). What the
check of an operand, a load or a store raises ends the instruction, which does nothing else (30 R209, 60 R525, R526).
Rests on choices the spec marks as its own (92 D2, D17). -/
def Obligations.BulkStore : Prop :=
  ∀ (s : State) (a : Operand) (ps : List Nat),
    (∀ image : List Byte, image.length = 128 → (∀ i : Fin 16, slotOf image i.val = s.gpr[i]) →
      (isMem a = true → translateAll s s.xm .write (addrOf s (nextIp s [a]) a) 128 = .ok ps →
        exec (.stogpr a) s = .next { s with mem := s.mem.writeBytes ps image, ip := nextIp s [a] }) ∧
      (translateAll s s.xm .write (getGpr s 7 - 128) 128 = .ok ps →
        exec .pushgpr s = .next { setGpr s 7 (getGpr s 7 - 128) with mem := s.mem.writeBytes ps image, ip := s.ip + 2 })) ∧
    (∀ (image : List Byte) (next : Word), image.length = 256 → (∀ i : Fin 16, slotOf image i.val = s.gpr[i]) →
      slotOf image 16 = next → slotOf image 17 = s.flags → slotOf image 18 = s.mode →
      (∀ i, 19 ≤ i → i < 32 → slotOf image i = 0) →
      (isMem a = true → next = nextIp s [a] → translateAll s s.xm .write (addrOf s next a) 256 = .ok ps →
        exec (.stoar a) s = .next { s with mem := s.mem.writeBytes ps image, ip := next }) ∧
      (next = s.ip + 2 → translateAll s s.xm .write (getGpr s 7 - 256) 256 = .ok ps →
        exec .pushar s = .next { setGpr s 7 (getGpr s 7 - 256) with mem := s.mem.writeBytes ps image, ip := next })) ∧
    (∀ t,
      (isMem a = true → translateAll s s.xm .write (addrOf s (nextIp s [a]) a) 128 = .error t → Abandons (.stogpr a) s t) ∧
      (isMem a = true → translateAll s s.xm .write (addrOf s (nextIp s [a]) a) 256 = .error t → Abandons (.stoar a) s t) ∧
      (translateAll s s.xm .write (getGpr s 7 - 128) 128 = .error t → Abandons .pushgpr s t) ∧
      (translateAll s s.xm .write (getGpr s 7 - 256) 256 = .error t → Abandons .pushar s t))

/-- `rstogpr`, `popgpr`, `rstoar`, `popar` load the registers from the image; the program-register forms need 0 in slots 19 to 31 and an
acceptable `mode` (else PROT), ignore slot 16, write `flags` and `mode` through their writes and synchronise the instruction stream (41
R304, R305, R308, R309). What the check of an operand, a load or a store raises ends the instruction, which does nothing else (30 R209, 60
R525, R526).
Rests on choices the spec marks as its own (92 D2, D17, D22). -/
def Obligations.BulkRestore : Prop :=
  ∀ (s : State) (a : Operand) (image : List Byte),
    (memBytes s (addrOf s (nextIp s [a]) a) 128 = .ok image → isMem a = true →
      exec (.rstogpr a) s = .next { s with gpr := Vector.ofFn fun i => slotOf image i.val, ip := nextIp s [a] }) ∧
    (memBytes s (getGpr s 7) 128 = .ok image →
      exec .popgpr s = .next { s with gpr := Vector.ofFn fun i => slotOf image i.val, ip := s.ip + 2 }) ∧
    (memBytes s (addrOf s (nextIp s [a]) a) 256 = .ok image → isMem a = true →
      ((∃ i, 19 ≤ i ∧ i < 32 ∧ slotOf image i ≠ 0) → exec (.rstoar a) s = .next (takeException s .prot)) ∧
      (modeCheck s (slotOf image 18) = .error (.exc .prot) → exec (.rstoar a) s = .next (takeException s .prot)) ∧
      ((∀ i, 19 ≤ i → i < 32 → slotOf image i = 0) → modeCheck s (slotOf image 18) = .ok () →
        exec (.rstoar a) s = .next { s with
          gpr := Vector.ofFn fun i => slotOf image i.val, flags := writtenFlags s (slotOf image 17)
          mode := writtenMode s (slotOf image 18), imem := s.mem, ip := nextIp s [a] })) ∧
    (memBytes s (getGpr s 7) 256 = .ok image →
      ((∃ i, 19 ≤ i ∧ i < 32 ∧ slotOf image i ≠ 0) → exec .popar s = .next (takeException s .prot)) ∧
      (modeCheck s (slotOf image 18) = .error (.exc .prot) → exec .popar s = .next (takeException s .prot)) ∧
      ((∀ i, 19 ≤ i → i < 32 → slotOf image i = 0) → modeCheck s (slotOf image 18) = .ok () →
        exec .popar s = .next { s with
          gpr := Vector.ofFn fun i => slotOf image i.val, flags := writtenFlags s (slotOf image 17)
          mode := writtenMode s (slotOf image 18), imem := s.mem, ip := s.ip + 2 })) ∧
    (∀ t,
      (isMem a = true → memBytes s (addrOf s (nextIp s [a]) a) 128 = .error t → Abandons (.rstogpr a) s t) ∧
      (isMem a = true → memBytes s (addrOf s (nextIp s [a]) a) 256 = .error t → Abandons (.rstoar a) s t) ∧
      (memBytes s (getGpr s 7) 128 = .error t → Abandons .popgpr s t) ∧
      (memBytes s (getGpr s 7) 256 = .error t → Abandons .popar s t))

/-! ### Block operations -/

/-- The block operations by themselves (42 R330, R335 to R339): what each loads, stores, compares and advances; `bsca` keeps r4. What the
check of an operand, a load or a store raises ends the instruction, which does nothing else (30 R209, 60 R525, R526).
Rests on choices the spec marks as its own (92 D2, D18, D19). -/
def Obligations.BlockResult : Prop :=
  ∀ (s : State) (ss : Size) (x y : Word) (ps : List Nat),
    let n : Word := BitVec.ofNat 64 ss.bytes
    let d := 8 * ss.bytes
    (memRead s (getGpr s 4) ss.bytes = .ok x → translateAll s s.xm .write (getGpr s 5) ss.bytes = .ok ps →
      ∃ fl, exec (.bcpy ss) s = .next { setGpr (setGpr s 4 (getGpr s 4 + n)) 5 (getGpr s 5 + n) with
          mem := s.mem.writeBytes ps (bytesLE ss.bytes x.toNat), flags := fl, ip := s.ip + 2 } ∧
        ZNOf fl x d ∧ KeepsFlags 0x0a s.flags fl) ∧
    (y.toNat = (getGpr s 0).toNat % 2 ^ d → translateAll s s.xm .write (getGpr s 5) ss.bytes = .ok ps →
      ∃ fl, exec (.bsto ss) s = .next { setGpr s 5 (getGpr s 5 + n) with
          mem := s.mem.writeBytes ps (bytesLE ss.bytes y.toNat), flags := fl, ip := s.ip + 2 } ∧
        ZNOf fl y d ∧ KeepsFlags 0x0a s.flags fl) ∧
    (memRead s (getGpr s 4) ss.bytes = .ok x →
      ∃ fl, exec (.bsca ss) s = .next { setGpr s 0 x with flags := fl, ip := s.ip + 2 } ∧
        ZNOf fl x d ∧ KeepsFlags 0x0a s.flags fl) ∧
    (memRead s (getGpr s 4) ss.bytes = .ok x → memRead s (getGpr s 5) ss.bytes = .ok y →
      ∀ r, AluOp.sub.ResultIs d x y r →
        exec (.bcmp ss) s = .next { setGpr (setGpr s 4 (getGpr s 4 + n)) 5 (getGpr s 5 + n) with
          flags := aluFlags .sub s.flags d x y r, ip := s.ip + 2 }) ∧
    (memRead s (getGpr s 4) ss.bytes = .ok x → y.toNat = (getGpr s 0).toNat % 2 ^ d →
      ∀ r, AluOp.sub.ResultIs d x y r →
        exec (.btst ss) s = .next { setGpr s 4 (getGpr s 4 + n) with
          flags := aluFlags .sub s.flags d x y r, ip := s.ip + 2 }) ∧
    (∀ t, let r4 := attempt (memRead s (getGpr s 4) ss.bytes); let r5 := attempt (memRead s (getGpr s 5) ss.bytes)
      let w5 := attempt (translateAll s s.xm .write (getGpr s 5) ss.bytes)
      ∀ p ∈ [(Instr.bcpy ss, [r4, w5]), (.bsto ss, [w5]), (.bsca ss, [r4]), (.bcmp ss, [r4, r5]), (.btst ss, [r4])],
        Raises p.2 t → Abandons p.1 s t)

/-- One iteration of a prefixed block operation, where what it loads is readable and what it stores is writable, does what the operation
alone does; `repbc` then lowers r1; the unit is left behind if the condition holds or, for `repbc`, r1 is 0, else it starts again (42 R331
to R333). A `repbc` entered with r1 = 0 follows the parameter; where that is to skip, no operand is accessed. What the check of an operand,
a load or a store raises ends the instruction, which does nothing else (30 R209, 60 R525, R526).
Rests on choices the spec marks as its own (92 D2, D18) and the model's choices of log 11, 27. -/
def Obligations.RepeatIteration : Prop :=
  ∀ (s : State) (cc : Cond) (ss : Size),
    let r4 : Prop := ∃ x, memRead s (getGpr s 4) ss.bytes = .ok x
    let r5 : Prop := ∃ y, memRead s (getGpr s 5) ss.bytes = .ok y
    let w5 : Prop := ∃ ps, translateAll s s.xm .write (getGpr s 5) ss.bytes = .ok ps
    (∀ p ∈ ([(.bcpy ss, .bcpy ss, r4 ∧ w5), (.bsto ss, .bsto ss, w5), (.bsca ss, .bsca ss, r4),
        (.bcmp ss, .bcmp ss, r4 ∧ r5), (.btst ss, .btst ss, r4)] : List (Follower × Instr × Prop)), p.2.2 →
      ∃ t, exec p.2.1 s = .next { t with ip := s.ip + 2 } ∧
        exec (.repbi cc p.1) s = .next { t with ip := if condHolds cc t.flags then s.ip + 4 else s.ip } ∧
        ((getGpr s 1 ≠ 0 ∨ s.cfg.repbcZeroEntry = .onceAndWrap) →
          exec (.repbc cc p.1) s = .next { setGpr t 1 (getGpr s 1 - 1) with
            ip := if condHolds cc t.flags = true ∨ getGpr s 1 = 1 then s.ip + 4 else s.ip })) ∧
      (getGpr s 1 = 0 → s.cfg.repbcZeroEntry = .skip →
        ∀ fo ∈ [Follower.bcpy ss, .bsto ss, .bsca ss, .bcmp ss, .btst ss],
          exec (.repbc cc fo) s = .next { s with ip := s.ip + 4 }) ∧
      (∀ t, let l4 := attempt (memRead s (getGpr s 4) ss.bytes); let l5 := attempt (memRead s (getGpr s 5) ss.bytes)
        let s5 := attempt (translateAll s s.xm .write (getGpr s 5) ss.bytes)
        ∀ p ∈ [(Follower.bcpy ss, [l4, s5]), (.bsto ss, [s5]), (.bsca ss, [l4]), (.bcmp ss, [l4, l5]), (.btst ss, [l4])],
          Raises p.2 t → Abandons (.repbi cc p.1) s t ∧
            ((getGpr s 1 ≠ 0 ∨ s.cfg.repbcZeroEntry = .onceAndWrap) → Abandons (.repbc cc p.1) s t))

/-! ### Shifts, unary operations, comparisons -/

/-- The closed forms of the shifts are their one-bit steps, iterated (43 R351 to R358).
Rests on choices the spec marks as its own (92 D10). -/
def Obligations.ShiftIsIteration : Prop :=
  ∀ (op : ShiftOp) (d : Nat) (a : Word) (c : Nat) (c0 : Bool), d ∈ [8, 16, 32, 64] → a.toNat < 2 ^ d →
    op.apply d a c c0 = op.iterate d c0 c a

/-- The two-operand shifts and their gpr forms: the count is the second (or explicit) operand, not reduced; C is the last bit out, Z and N
the result's, V any value, P kept; with `f` the flags are kept (43 R350, R351, R359). What the check of an operand, a load or a store raises
ends the instruction, which does nothing else (30 R209, 60 R525, R526).
Rests on choices the spec marks as its own (92 D2, D10, D13) and the model's choices of log 4, 5. -/
def Obligations.ShiftResult : Prop :=
  (∀ p ∈ ([(.lsh, .lsh), (.rsh, .rsh), (.arsh, .arsh), (.lshc, .lshc), (.rshc, .rshc), (.lrot, .lrot), (.rrot, .rrot)] :
      List ((Bool → Bool → Operand → Operand → Instr) × ShiftOp)),
    ∀ (l f : Bool) (a b : Operand) (s : State), aluShape l a b = true → let n := nextIp s [a, b]
    (∀ x c, Reads s n a x → Reads s n b c →
      let r := p.2.iterate (bitsOf a) (s.flags.getLsbD 0) c.toNat x
      (∀ dst, Accepts s n a dst r.value →
        ∃ fl, exec (p.1 l f a b) s = .next { putDest s dst r.value with flags := fl, ip := n } ∧
          (f = true → fl = s.flags) ∧
          (f = false → flagC fl = r.out ∧ ZNOf fl r.value (bitsOf a) ∧ KeepsFlags 0x0f s.flags fl)) ∧
      ∀ t, Rejects s n a r.value t → Abandons (p.1 l f a b) s t) ∧
    (∀ t, Raises [opUpdateCheck s a, opReadCheck s b, attempt (loadOp s n a), attempt (loadOp s n b), attempt (destOf s n a)] t →
      Abandons (p.1 l f a b) s t)) ∧
  (∀ k ∈ [Instr.lshr, .rshr, .arshr, .lshcr, .rshcr, .lrotr, .rrotr], ∀ (g : BitVec 4) (a : Operand) (s : State) (t : Trap),
    Raises [opReadCheck s a, attempt (loadOp s (nextIp s [a]) a)] t → Abandons (k g a) s t) ∧
  (∀ p ∈ ([(.lshr, .lsh), (.rshr, .rsh), (.arshr, .arsh), (.lshcr, .lshc), (.rshcr, .rshc), (.lrotr, .lrot), (.rrotr, .rrot)] :
      List ((BitVec 4 → Operand → Instr) × ShiftOp)),
    ∀ (g : BitVec 4) (a : Operand) (s : State) (x c : Word), Reads s (nextIp s [a]) a c →
      let d := if isImm a then 64 else bitsOf a
      x.toNat = (getGpr s g).toNat % 2 ^ d →
      let r := p.2.iterate d (s.flags.getLsbD 0) c.toNat x
      ∃ fl, exec (p.1 g a) s = .next { setGpr s g r.value with flags := fl, ip := nextIp s [a] } ∧
        flagC fl = r.out ∧ ZNOf fl r.value d ∧ KeepsFlags 0x0f s.flags fl)

/-- `bnot` and `neg`, and their gpr forms at 64 bits: complement and negation at the operand's size; Z, N and P are written unless `f`, C
and V never (43 R362 to R366). What the check of an operand, a load or a store raises ends the instruction, which does nothing else (30
R209, 60 R525, R526).
Rests on choices the spec marks as its own (92 D2, D13, D15, D39) and the model's choices of log 5. -/
def Obligations.UnaryResult : Prop :=
  ∀ (s : State) (l f : Bool) (a : Operand) (x r : Word) (dst : Dest) (g : BitVec 4),
    (unaryShape l a = true → let n := nextIp s [a]
      (∀ t, Raises [opUpdateCheck s a, attempt (loadOp s n a), attempt (destOf s n a)] t →
        Abandons (.bnot l f a) s t ∧ Abandons (.neg l f a) s t) ∧
      (∀ t, Reads s n a x → Rejects s n a r t → (r.toNat = 2 ^ bitsOf a - 1 - x.toNat → Abandons (.bnot l f a) s t) ∧
        (r.toNat = (2 ^ bitsOf a - x.toNat) % 2 ^ bitsOf a → Abandons (.neg l f a) s t))) ∧
    (unaryShape l a = true → Reads s (nextIp s [a]) a x → Accepts s (nextIp s [a]) a dst r →
      (r.toNat = 2 ^ bitsOf a - 1 - x.toNat →
        ∃ fl, exec (.bnot l f a) s = .next { putDest s dst r with flags := fl, ip := nextIp s [a] } ∧
          (f = true → fl = s.flags) ∧ (f = false → fl = setZNP s.flags r (bitsOf a))) ∧
      (r.toNat = (2 ^ bitsOf a - x.toNat) % 2 ^ bitsOf a →
        ∃ fl, exec (.neg l f a) s = .next { putDest s dst r with flags := fl, ip := nextIp s [a] } ∧
          (f = true → fl = s.flags) ∧ (f = false → fl = setZNP s.flags r (bitsOf a)))) ∧
    exec (.bnotr g) s =
      .next { setGpr s g (~~~getGpr s g) with flags := setZNP s.flags (~~~getGpr s g) 64, ip := s.ip + 2 } ∧
    exec (.negr g) s =
      .next { setGpr s g (-getGpr s g) with flags := setZNP s.flags (-getGpr s g) 64, ip := s.ip + 2 }

/-- `cmp` and `test` at the larger size, their gpr forms at the explicit operand's: only flags are written, `cmp` those of a subtraction,
`test` Z and N of the bitwise and (43 R379 to R383). What the check of an operand, a load or a store raises ends the instruction, which does
nothing else (30 R209, 60 R525, R526).
Rests on choices the spec marks as its own (92 D2, D13, D14). -/
def Obligations.CompareResult : Prop :=
  ∀ (s : State) (a b : Operand) (g : BitVec 4) (x y r : Word),
    (cmpShape a b = true → let n := nextIp s [a, b]
      ∀ t, Raises [opReadCheck s a, opReadCheck s b, attempt (loadOp s n a), attempt (loadOp s n b)] t →
        Abandons (.cmp a b) s t ∧ Abandons (.test a b) s t) ∧
    (∀ t, Raises [opReadCheck s a, attempt (loadOp s (nextIp s [a]) a)] t → Abandons (.cmpr g a) s t ∧ Abandons (.testr g a) s t) ∧
    (cmpShape a b = true → Reads s (nextIp s [a, b]) a x → Reads s (nextIp s [a, b]) b y →
      (AluOp.sub.ResultIs (max (bitsOf a) (bitsOf b)) x y r →
        exec (.cmp a b) s = .next { s with
          flags := aluFlags .sub s.flags (max (bitsOf a) (bitsOf b)) x y r, ip := nextIp s [a, b] }) ∧
      ∃ fl, exec (.test a b) s = .next { s with flags := fl, ip := nextIp s [a, b] } ∧
        ZNOf fl (x &&& y) (max (bitsOf a) (bitsOf b)) ∧ KeepsFlags 0x0a s.flags fl) ∧
    (Reads s (nextIp s [a]) a y →
      let d := if isImm a then 64 else bitsOf a
      x.toNat = (getGpr s g).toNat % 2 ^ d →
      (AluOp.sub.ResultIs d x y r →
        exec (.cmpr g a) s = .next { s with flags := aluFlags .sub s.flags d x y r, ip := nextIp s [a] }) ∧
      ∃ fl, exec (.testr g a) s = .next { s with flags := fl, ip := nextIp s [a] } ∧
        ZNOf fl (x &&& y) d ∧ KeepsFlags 0x0a s.flags fl)

/-! ### Atomic operations -/

/-- `xchg` stores each operand's value in the other and keeps the flags. `cmpxchg`: equal values store the third operand in the first and
set Z; else the first operand's value is stored in the second and Z is cleared; an operand of the two that cannot be written faults whatever
the comparison gives; other flags are kept. `wcmpxchg` does one or the other on equal values and the second on unequal ones (44 R402 to
R404). What the check of an operand, a load or a store raises ends the instruction, which does nothing else (30 R209, 60 R525, R526).
Rests on choices the spec marks as its own (92 D2, D30) and the model's choices of log 4, 5, 37. -/
def Obligations.ExchangeResult : Prop :=
  (∀ (s : State) (a b : Operand) (x y : Word) (da db : Dest), xchgShape a b = true →
     Reads s (nextIp s [a, b]) a x → Reads s (nextIp s [a, b]) b y →
     Accepts s (nextIp s [a, b]) a da y → Accepts s (nextIp s [a, b]) b db x →
     exec (.xchg a b) s = .next { putDest (putDest s da y) db x with ip := nextIp s [a, b] }) ∧
  (∀ (s : State) (a b c : Operand) (x e n : Word) (da db : Dest), xchgShape a b = true →
     Reads s (nextIp s [a, b, c]) a x → Reads s (nextIp s [a, b, c]) b e → Reads s (nextIp s [a, b, c]) c n →
     opWriteCheck s a = .ok () → opWriteCheck s b = .ok () →
     destOf s (nextIp s [a, b, c]) a = .ok da → destOf s (nextIp s [a, b, c]) b = .ok db →
     ∃ f1 f0, flagZ f1 = true ∧ KeepsFlags 0x02 s.flags f1 ∧ flagZ f0 = false ∧ KeepsFlags 0x02 s.flags f0 ∧
       (x = e → destCheck s da n = .ok () →
         exec (.cmpxchg a b c) s = .next { putDest s da n with flags := f1, ip := nextIp s [a, b, c] }) ∧
       (x ≠ e → destCheck s db x = .ok () →
         exec (.cmpxchg a b c) s = .next { putDest s db x with flags := f0, ip := nextIp s [a, b, c] } ∧
         exec (.wcmpxchg a b c) s = .next { putDest s db x with flags := f0, ip := nextIp s [a, b, c] }) ∧
       (x = e → destCheck s da n = .ok () → destCheck s db x = .ok () →
         exec (.wcmpxchg a b c) s = .next { putDest s da n with flags := f1, ip := nextIp s [a, b, c] } ∨
         exec (.wcmpxchg a b c) s = .next { putDest s db x with flags := f0, ip := nextIp s [a, b, c] })) ∧
  (∀ (s : State) (a b c : Operand) (t : Trap), xchgShape a b = true →
     (let n := nextIp s [a, b]
      Raises [opUpdateCheck s a, opUpdateCheck s b, attempt (loadOp s n a), attempt (loadOp s n b), attempt (destOf s n a),
          attempt (destOf s n b)] t ∨
        (∃ x y, Reads s n a x ∧ Reads s n b y ∧
          ((Rejects s n a y t ∧ opWriteCheck s b = .ok () ∧ ∃ db, destOf s n b = .ok db) ∨
            ∃ da, Accepts s n a da y ∧ Rejects s n b x t)) →
      Abandons (.xchg a b) s t) ∧
     ∀ i ∈ [Instr.cmpxchg a b c, .wcmpxchg a b c],
       let n := nextIp s [a, b, c]
       (Raises [opUpdateCheck s a, opUpdateCheck s b, opReadCheck s c, attempt (loadOp s n a), attempt (loadOp s n b),
          attempt (loadOp s n c), attempt (destOf s n a), attempt (destOf s n b)] t → Abandons i s t) ∧
       ∀ x e v da db, Reads s n a x → Reads s n b e → Reads s n c v → opWriteCheck s a = .ok () → opWriteCheck s b = .ok () →
         destOf s n a = .ok da → destOf s n b = .ok db →
         (x ≠ e → destCheck s db x = .error t → Abandons i s t) ∧
         (x = e → destCheck s da v = .error t →
           Abandons (.cmpxchg a b c) s t ∧ (destCheck s db x = .error t → Abandons (.wcmpxchg a b c) s t)))

/-! ### Branches -/

/-- What a taken branch leaves: `ip` at the target, fetches and walks that see memory as it is, everything else kept; and the check of a
target raises XA on an odd one, else the fault of a fetch there with the page tables as they are in memory (45 R421, R422).
Rests on choices the spec marks as its own (92 D20, D21, D43) and the model's choices of log 9, 16, 18. -/
def Obligations.TakenBranch : Prop :=
  ∀ (s : State) (xm : Bool) (t : Word),
    branchTo s t =
      { s with
        ip := t, imem := s.mem, wmem := s.mem, wptl := ptlBits s.cr0, brCr0 := s.cr0, brPage := s.page, brMem := s.mem } ∧
    (t.getLsbD 0 = true → checkTarget s xm t = .error (.exc (.xa t))) ∧
    (∀ e, t.getLsbD 0 = false → translate { s with wmem := s.mem, wptl := ptlBits s.cr0 } xm .fetch t = .error e →
      checkTarget s xm t = .error e) ∧
    (∀ p, t.getLsbD 0 = false → translate { s with wmem := s.mem, wptl := ptlBits s.cr0 } xm .fetch t = .ok p →
      checkTarget s xm t = .ok ())

/-- Conditional branches, all sixteen conditions with each immediate: not taken, `ip` advances and the target is not checked; taken, the
target (absolute and zero-extended, or the next address plus the sign-extended immediate) is checked and is next; its faults are the
branch's. The named branches are the sixteen conditions in the order of their codes (45 R420, R421, R425, R426).
Rests on choices the spec marks as its own (92 D1, D20, D21, D29, D43). -/
def Obligations.ConditionalBranch : Prop :=
  (∀ (s : State) (cc : Cond) (rel : Bool) (w : BitVec 4) (i : BitVec 16) (j : BitVec 32) (k : BitVec 64),
     ∀ p ∈ ([(jcc16 cc rel w i, s.ip + 4, if rel then s.ip + 4 + i.signExtend 64 else i.setWidth 64),
         (jcc32 cc rel w j, s.ip + 6, if rel then s.ip + 6 + j.signExtend 64 else j.setWidth 64),
         (jcc64 cc rel w k, s.ip + 10, if rel then s.ip + 10 + k else k)] : List (Instr × Word × Word)),
       (condHolds cc s.flags = false → exec p.1 s = .next { s with ip := p.2.1 }) ∧
       (condHolds cc s.flags = true →
         (checkTarget s s.xm p.2.2 = .ok () → exec p.1 s = .next (branchTo s p.2.2)) ∧
         (∀ e, checkTarget s s.xm p.2.2 = .error (.exc e) → exec p.1 s = .next (takeException s e)))) ∧
  (∀ (rel : Bool) (w : BitVec 4) (i : BitVec 16) (j : BitVec 32) (k : BitVec 64),
     ((List.range 16).map fun c => jcc16 (.ofCode (BitVec.ofNat 4 c)) rel w i) =
       [.jp16 rel w i, .jc16 rel w i, .jv16 rel w i, .jz16 rel w i, .jlt16 rel w i, .jle16 rel w i, .jbe16 rel w i,
         .jmi16 rel w i, .jpl16 rel w i, .ja16 rel w i, .jgt16 rel w i, .jge16 rel w i, .jnz16 rel w i, .jnv16 rel w i,
         .jnc16 rel w i, .jnp16 rel w i] ∧
     ((List.range 16).map fun c => jcc32 (.ofCode (BitVec.ofNat 4 c)) rel w j) =
       [.jp32 rel w j, .jc32 rel w j, .jv32 rel w j, .jz32 rel w j, .jlt32 rel w j, .jle32 rel w j, .jbe32 rel w j,
         .jmi32 rel w j, .jpl32 rel w j, .ja32 rel w j, .jgt32 rel w j, .jge32 rel w j, .jnz32 rel w j, .jnv32 rel w j,
         .jnc32 rel w j, .jnp32 rel w j] ∧
     ((List.range 16).map fun c => jcc64 (.ofCode (BitVec.ofNat 4 c)) rel w k) =
       [.jp64 rel w k, .jc64 rel w k, .jv64 rel w k, .jz64 rel w k, .jlt64 rel w k, .jle64 rel w k, .jbe64 rel w k,
         .jmi64 rel w k, .jpl64 rel w k, .ja64 rel w k, .jgt64 rel w k, .jge64 rel w k, .jnz64 rel w k, .jnv64 rel w k,
         .jnc64 rel w k, .jnp64 rel w k])

/-- `jmp`, `ijmp`, `fret`, `ifjmp` go to their target; `call` and `icall` also push the next address, in the 8 bytes below `sp`; `fcall` and
`ifcall` store it in r14; `ret` pops its target (45 R430 to R433, R436 to R439). What the check of an operand, a load or a store raises ends
the instruction, which does nothing else (30 R209, 60 R525, R526).
Rests on choices the spec marks as its own (92 D1, D2, D20, D21, D43). -/
def Obligations.JumpsAndCalls : Prop :=
  ∀ (s : State) (rel : Bool) (imm : Imm) (r : BitVec 4),
    let next := s.ip + BitVec.ofNat 64 (2 + imm.bytes)
    let t := if rel then next + immSext imm else immZext imm
    let dest (v : Word) : Word := if rel then s.ip + 2 + v else v
    (checkTarget s s.xm t = .ok () → exec (.jmp rel imm) s = .next (branchTo s t) ∧
      exec (.fcall rel imm) s = .next (branchTo (setGpr s 14 next) t)) ∧
    (∀ p ∈ [(Instr.ijmp rel r, getGpr s r), (.fret rel, getGpr s 14), (.ifjmp rel, getGpr s 15)],
      checkTarget s s.xm (dest p.2) = .ok () → exec p.1 s = .next (branchTo s (dest p.2))) ∧
    (checkTarget s s.xm (dest (getGpr s 15)) = .ok () →
      exec (.ifcall rel) s = .next (branchTo (setGpr s 14 (s.ip + 2)) (dest (getGpr s 15)))) ∧
    (∀ ps, translateAll s s.xm .write (getGpr s 7 - 8) 8 = .ok ps →
      (checkTarget s s.xm t = .ok () →
        exec (.call rel imm) s = .next (branchTo
          (setGpr { s with mem := s.mem.writeBytes ps (bytesLE 8 next.toNat) } 7 (getGpr s 7 - 8)) t)) ∧
      (checkTarget s s.xm (dest (getGpr s r)) = .ok () →
        exec (.icall rel r) s = .next (branchTo
          (setGpr { s with mem := s.mem.writeBytes ps (bytesLE 8 (s.ip + 2).toNat) } 7 (getGpr s 7 - 8))
          (dest (getGpr s r))))) ∧
    (∀ v, memRead s (getGpr s 7) 8 = .ok v → checkTarget s s.xm v = .ok () →
      exec .ret s = .next (branchTo (setGpr s 7 (getGpr s 7 + 8)) v)) ∧
    (∀ f, let stored := attempt (translateAll s s.xm .write (getGpr s 7 - 8) 8)
      (checkTarget s s.xm t = .error f → Abandons (.jmp rel imm) s f ∧ Abandons (.fcall rel imm) s f) ∧
      (Raises [stored, checkTarget s s.xm t] f → Abandons (.call rel imm) s f) ∧
      (Raises [stored, checkTarget s s.xm (dest (getGpr s r))] f → Abandons (.icall rel r) s f) ∧
      (∀ p ∈ [(Instr.ijmp rel r, getGpr s r), (.fret rel, getGpr s 14), (.ifjmp rel, getGpr s 15), (.ifcall rel, getGpr s 15)],
        checkTarget s s.xm (dest p.2) = .error f → Abandons p.1 s f) ∧
      (memRead s (getGpr s 7) 8 = .error f → Abandons .ret s f) ∧
      (∀ v, memRead s (getGpr s 7) 8 = .ok v → checkTarget s s.xm v = .error f → Abandons .ret s f))

/-- The branches that write `mode`: `jsm` and `callsm` load it from r0, `retrsm` pops it above the return address; an unacceptable value is
PROT; the target is checked under the new mode; `callsm` pushes the next address and, with `v`, the old mode above it (45 R440 to R442).
What the check of an operand, a load or a store raises ends the instruction, which does nothing else (30 R209, 60 R525, R526).
Rests on choices the spec marks as its own (92 D1, D2, D20, D21, D22, D43) and the model's choices of log 5. -/
def Obligations.ModeBranches : Prop :=
  ∀ (s : State) (rel v : Bool) (imm : Imm),
    let next := s.ip + BitVec.ofNat 64 (2 + imm.bytes)
    let t := if rel then next + immSext imm else immZext imm
    (modeCheck s (getGpr s 0) = .error (.exc .prot) → exec (.jsm rel imm) s = .next (takeException s .prot) ∧
      ∀ ps, translateAll s s.xm .write (getGpr s 7 - (if v then 16 else 8)) (if v then 16 else 8) = .ok ps →
        exec (.callsm rel v imm) s = .next (takeException s .prot)) ∧
    (modeCheck s (getGpr s 0) = .ok () → checkTarget s (modeXM (writtenMode s (getGpr s 0))) t = .ok () →
      exec (.jsm rel imm) s = .next (branchTo { s with mode := writtenMode s (getGpr s 0) } t) ∧
      ∀ ps, translateAll s s.xm .write (getGpr s 7 - (if v then 16 else 8)) (if v then 16 else 8) = .ok ps →
        ∃ m : Memory, exec (.callsm rel v imm) s = .next (branchTo
            (setGpr { s with mem := m, mode := writtenMode s (getGpr s 0) } 7 (getGpr s 7 - (if v then 16 else 8))) t) ∧
          m.readBytes ps = bytesLE 8 next.toNat ++ (if v then bytesLE 8 s.mode.toNat else []) ∧
          ∀ a, a ∉ ps → m.read a = s.mem.read a) ∧
    (∀ u m, memRead s (getGpr s 7) 8 = .ok u → memRead s (getGpr s 7 + 8) 8 = .ok m →
      (modeCheck s m = .error (.exc .prot) → exec .retrsm s = .next (takeException s .prot)) ∧
      (modeCheck s m = .ok () → checkTarget s (modeXM (writtenMode s m)) u = .ok () →
        exec .retrsm s = .next (branchTo (setGpr { s with mode := writtenMode s m } 7 (getGpr s 7 + 16)) u))) ∧
    (∀ f, let target := checkTarget s (modeXM (writtenMode s (getGpr s 0))) t
      let stored := attempt (translateAll s s.xm .write (getGpr s 7 - (if v then 16 else 8)) (if v then 16 else 8))
      (Raises [modeCheck s (getGpr s 0), target] f → Abandons (.jsm rel imm) s f) ∧
      (Raises [stored, modeCheck s (getGpr s 0), target] f → Abandons (.callsm rel v imm) s f) ∧
      (Raises [attempt (memRead s (getGpr s 7) 8), attempt (memRead s (getGpr s 7 + 8) 8)] f → Abandons .retrsm s f) ∧
      (∀ u m, memRead s (getGpr s 7) 8 = .ok u → memRead s (getGpr s 7 + 8) 8 = .ok m → modeCheck s m = .ok () →
        checkTarget s (modeXM (writtenMode s m)) u = .error f → Abandons .retrsm s f))

/-- `scall`: PROT if `scdp` is 0; the fast form saves r7, `mode` and the next address in r12, r13, r14; the stack form pushes old `sp`,
`flags`, `mode` and the next address with supervisor rights; both switch to `scsp` unless it is 0, clear XM and XMM and go to `scdp`; a
fault of the pushes reports the caller's mode (20 R152), and a fault of the target is that of `scall`.
`int i` delivers vector 16 + i with the next address saved while IE is set; with IE clear it follows the parameter (45 R435, R450,
60 R551, R553).
Rests on choices the spec marks as its own (92 D2, D6, D20, D21, D40, D42, D43) and the model's choices of log 16, 27. -/
def Obligations.SupervisorEntry : Prop :=
  (∀ (s : State),
     let sp := if s.scsp = 0 then getGpr s 7 else s.scsp
     (s.scdp = 0 → exec .scall s = .next (takeException s .prot)) ∧
     (s.scdp ≠ 0 → s.sccr.getLsbD 1 = true → checkTarget s false s.scdp = .ok () →
       ∃ t, exec .scall s = .next t ∧ t.ip = s.scdp ∧ getGpr t 12 = getGpr s 7 ∧ getGpr t 7 = sp ∧ getGpr t 13 = s.mode ∧
         getGpr t 14 = s.ip + 2 ∧ SameGprsBut [7, 12, 13, 14] s t ∧
         (∀ i, t.mode.getLsbD i = (s.mode.getLsbD i && i != 32 && i != 33)) ∧
         t = { branchTo s s.scdp with gpr := t.gpr, mode := t.mode }) ∧
     (∀ ps, s.scdp ≠ 0 → s.sccr.getLsbD 1 = false → translateAll s false .write (sp - 32) 32 = .ok ps →
       checkTarget s false s.scdp = .ok () →
       ∃ t, exec .scall s = .next t ∧ t.ip = s.scdp ∧ getGpr t 7 = sp - 32 ∧ SameGprsBut [7] s t ∧
         (∀ i, t.mode.getLsbD i = (s.mode.getLsbD i && i != 32 && i != 33)) ∧
         t.mem.readBytes ps =
           bytesLE 8 (s.ip + 2).toNat ++ bytesLE 8 s.mode.toNat ++ bytesLE 8 s.flags.toNat ++ bytesLE 8 (getGpr s 7).toNat ∧
         SameMemoryBut ps s t ∧
         t = { branchTo { s with mem := t.mem } s.scdp with gpr := t.gpr, mode := t.mode, halted := false }) ∧
     (∀ i, s.scdp ≠ 0 → s.sccr.getLsbD 1 = false → translateAll s false .write (sp - 32) 32 = .error (.exc (.pf i)) →
       ∃ j, exec .scall s = .next (takeException s (.pf { i with status := j })) ∧
         ∀ b : Nat, j.getLsbD b = if b < 2 then s.xm else i.status.getLsbD b) ∧
     (∀ f, s.scdp ≠ 0 → checkTarget s false s.scdp = .error f →
       (s.sccr.getLsbD 1 = true ∨ ∃ ps, translateAll s false .write (sp - 32) 32 = .ok ps) → Abandons .scall s f)) ∧
  (∀ (s t : State) (i : BitVec 4),
     (interruptsOn s.cr0 = true → enter s (16 + i.toNat) (s.ip + 2) s.flags (getGpr s 7) = .ok t →
       exec (.intr i) s = .next t) ∧
     (interruptsOn s.cr0 = true → enter s (16 + i.toNat) (s.ip + 2) s.flags (getGpr s 7) = .error .outOfBounds →
       exec (.intr i) s = .next (deliverException { s with fcode := 0 } 2 s.ip)) ∧
     (interruptsOn s.cr0 = false → s.cfg.intWhenDisabled = .ignored → exec (.intr i) s = .next { s with ip := s.ip + 2 }) ∧
     (interruptsOn s.cr0 = false → s.cfg.intWhenDisabled = .prot → exec (.intr i) s = .next (takeException s .prot)))

/-- The returns in supervisor mode: fast `scret` takes `ip`, `mode`, r7 from r14, r13, r12 and keeps `flags`; `reti` and the stack form of
`scret` pop `ip`, `mode`, `flags`, `sp`; a popped mode whose XM and XMM differ is PROT (46 R471, R472). What the check of an operand, a load
or a store raises ends the instruction, which does nothing else (30 R209, 60 R525, R526).
Rests on choices the spec marks as its own (92 D2, D20, D21, D22, D43) and the spec's own resolution 90 C12. -/
def Obligations.SupervisorReturn : Prop :=
  ∀ (s : State), s.xm = false →
    (s.sccr.getLsbD 1 = true → modeCheck s (getGpr s 13) = .ok () →
      checkTarget s (modeXM (getGpr s 13)) (getGpr s 14) = .ok () →
      exec .scret s = .next (branchTo (setGpr { s with mode := getGpr s 13 } 7 (getGpr s 12)) (getGpr s 14))) ∧
    (∀ t m f p, memRead s (getGpr s 7) 8 = .ok t → memRead s (getGpr s 7 + 8) 8 = .ok m →
      memRead s (getGpr s 7 + 16) 8 = .ok f → memRead s (getGpr s 7 + 24) 8 = .ok p →
      ∀ i ∈ [Instr.reti, .scret], (i = .scret → s.sccr.getLsbD 1 = false) →
        (m.getLsbD 32 ≠ m.getLsbD 33 → exec i s = .next (takeException s .prot)) ∧
        (m.getLsbD 32 = m.getLsbD 33 → checkTarget s (m.getLsbD 32) t = .ok () →
          exec i s = .next (branchTo (setGpr { s with flags := writtenFlags s f, mode := m } 7 p) t)) ∧
        (∀ x, m.getLsbD 32 = m.getLsbD 33 → checkTarget s (m.getLsbD 32) t = .error x → Abandons i s x)) ∧
    (∀ x, s.sccr.getLsbD 1 = true →
      Raises [modeCheck s (getGpr s 13), checkTarget s (modeXM (getGpr s 13)) (getGpr s 14)] x → Abandons .scret s x) ∧
    (∀ x, Raises ([0, 8, 16, 24].map fun o => attempt (memRead s (getGpr s 7 + o) 8)) x →
      Abandons .reti s x ∧ (s.sccr.getLsbD 1 = false → Abandons .scret s x))

/-! ### Supervisor instructions -/

/-- `halt` sets the halted flag; `pcfl` flushes the page caches unless `page` has a flag bit, which is PF; `flall` flushes all caches;
`dflush` and `iflush` test the range of their address, `iflush` makes the aligned 2-byte word there current (46 R480, R484 to R488).
Rests on choices the spec marks as its own (92 D32, D41) and the model's choices of log 9, 19, 26, 29, 30. -/
def Obligations.HaltAndCaches : Prop :=
  ∀ (s : State) (a : Operand), s.xm = false →
    exec .halt s = .next { s with halted := true, ip := s.ip + 2 } ∧
    (s.page.extractLsb' 0 12 = 0#12 → exec .pcfl s = .next { s with wmem := s.mem, wptl := ptlBits s.cr0, ip := s.ip + 2 }) ∧
    (s.page.extractLsb' 0 12 ≠ 0#12 →
      ∃ i, exec .pcfl s = .next (takeException s (.pf i)) ∧ i.pref = s.page ∧ i.status = 0x0100) ∧
    exec .flall s = .next { s with imem := s.mem, wmem := s.mem, wptl := ptlBits s.cr0, ip := s.ip + 2 } ∧
    (isMem a = true →
      let addr := addrOf s (nextIp s [a]) a
      let inRange := if pagingOn s.cr0 then virtInRange (ptlOf s.cr0) addr else physInRange s.cfg addr
      (inRange = true → exec (.dflush a) s = .next { s with ip := nextIp s [a] } ∧
        ∃ im : Memory, exec (.iflush a) s = .next { s with imem := im, ip := nextIp s [a] } ∧
          (∀ q, im.read q = s.imem.read q ∨ im.read q = s.mem.read q) ∧
          ∀ p, translate { s with wmem := s.mem, wptl := ptlBits s.cr0 } false .read addr = .ok p →
            im.read (p / 2 * 2) = s.mem.read (p / 2 * 2) ∧ im.read (p / 2 * 2 + 1) = s.mem.read (p / 2 * 2 + 1) ∧
            ∀ q, q ≠ p / 2 * 2 → q ≠ p / 2 * 2 + 1 → im.read q = s.imem.read q) ∧
      (inRange = false → ∃ i, i.fcode = addr ∧ i.pref = 0 ∧ i.plevel = 0 ∧ i.status.getLsbD 9 = true ∧
        exec (.dflush a) s = .next (takeException s (.pf i)) ∧ exec (.iflush a) s = .next (takeException s (.pf i))))

/-- `storegf` stores, as one access, 64 slots: registers 0 to 31, then 128 to 159, `ip` as the next instruction's address and reserved
registers as 0; nothing else changes (46 R499, R501). What the check of an operand, a load or a store raises ends the instruction, which
does nothing else (30 R209, 60 R525, R526).
Rests on choices the spec marks as its own (92 D2, D8) and the model's choices of log 15. -/
def Obligations.StoreAllRegisters : Prop :=
  ∀ (s : State) (a : Operand), s.xm = false → isMem a = true →
    (∀ t, translateAll s s.xm .write (addrOf s (nextIp s [a]) a) 512 = .error t → Abandons (.storegf a) s t) ∧
    ∀ (ps : List Nat), translateAll s s.xm .write (addrOf s (nextIp s [a]) a) 512 = .ok ps →
    ∃ image : List Byte, image.length = 512 ∧
      exec (.storegf a) s = .next { s with mem := s.mem.writeBytes ps image, ip := nextIp s [a] } ∧
      (∀ n, n < 32 → slotOf image n = readReg s (nextIp s [a]) n) ∧
      (∀ n, 128 ≤ n → n < 160 → slotOf image (n - 96) = readReg s (nextIp s [a]) n) ∧
      slotOf image 16 = nextIp s [a] ∧
      ∀ i, ((19 ≤ i ∧ i ≤ 31) ∨ i = 50 ∨ i = 51 ∨ (59 ≤ i ∧ i ≤ 63)) → slotOf image i = 0

/-- `rstregf`: a non-zero slot of a Reserved register is PROT; else, where `cr0`, `sccr`, `mode` and the target are acceptable, every
register but the CPUInfo ones is loaded from its slot and execution goes on at slot 16 (46 R500); a restore that maps the executing page
elsewhere stops by name (20 R151): none does that keeps paging off or keeps `cr0` and `page`, and every one does that turns paging off on a
page not mapped to its own address. The machine-specific registers follow `MsrBehaviour`. What the check of an operand, a load or a store
raises ends the instruction, which does nothing else (30 R209, 60 R525, R526).
Rests on choices the spec marks as its own (92 D2, D8, D20, D21, D43) and the model's choices of log 12, 15, 18. -/
def Obligations.RestoreAllRegisters : Prop :=
  ∀ (s : State) (a : Operand), s.xm = false → isMem a = true →
    (∀ t, memBytes s (addrOf s (nextIp s [a]) a) 512 = .error t → Abandons (.rstregf a) s t) ∧
    ∀ (image : List Byte), memBytes s (addrOf s (nextIp s [a]) a) 512 = .ok image →
    ((∃ i, ((19 ≤ i ∧ i ≤ 31) ∨ i = 50 ∨ i = 51 ∨ (59 ≤ i ∧ i ≤ 63)) ∧ slotOf image i ≠ 0) →
      exec (.rstregf a) s = .next (takeException s .prot)) ∧
    ((∀ i, ((19 ≤ i ∧ i ≤ 31) ∨ i = 50 ∨ i = 51 ∨ (59 ≤ i ∧ i ≤ 63)) → slotOf image i = 0) →
      (∀ t, Raises [cr0Check s (slotOf image 32), sccrCheck s (slotOf image 37), modeCheck s (slotOf image 18)] t →
        Abandons (.rstregf a) s t) ∧
      (cr0Check s (slotOf image 32) = .ok () → sccrCheck s (slotOf image 37) = .ok () →
        modeCheck s (slotOf image 18) = .ok () →
        ∀ u : State, u = { s with
            gpr := Vector.ofFn fun i => slotOf image i.val, flags := writtenFlags s (slotOf image 17), mode := slotOf image 18
            cr0 := slotOf image 32, page := slotOf image 33, flprotect := slotOf image 34, scdp := slotOf image 35
            scsp := slotOf image 36, sccr := slotOf image 37, itabp := slotOf image 38, ciread := slotOf image 39
            fcode := slotOf image 48, pfcharp := slotOf image 49
            msr := restoredMsrs s image } →
          (∀ t, checkTarget u u.xm (slotOf image 16) = .error t → Abandons (.rstregf a) s t) ∧ (
          checkTarget u u.xm (slotOf image 16) = .ok () →
          let kept := keepsOwnMapping s u (nextIp s [a]) = true
          (kept ∨ (pagingOn s.cr0 = false ∧ pagingOn u.cr0 = false) ∨ (u.cr0 = s.cr0 ∧ u.page = s.page) →
            exec (.rstregf a) s = .next (branchTo u (slotOf image 16))) ∧
          (¬ kept → exec (.rstregf a) s = .fault .mappingChanged) ∧
          (∀ p, pagingOn s.cr0 = true → s.brCr0 = s.cr0 → s.brPage = s.page → s.brMem = s.mem → pagingOn u.cr0 = false →
            mappedTo s s.ip = some p → p ≠ s.ip.toNat → exec (.rstregf a) s = .fault .mappingChanged)))) ∧
    (s.cfg.msrBehaviour = .refuse → restoredMsrs s image = s.msr) ∧
    (s.cfg.msrBehaviour = .storage → ∀ k : Fin 7, (restoredMsrs s image)[k] = slotOf image (52 + k.val)) ∧
    (s.cfg.msrBehaviour = .machine →
      let w (k : Fin 7) (m : Vector Word 7) := Config.msrWrite s.freeCtr k (slotOf image (52 + k.val)) m
      restoredMsrs s image = w 6 (w 5 (w 4 (w 3 (w 2 (w 1 (w 0 s.msr)))))))

/-! ### Devices -/

/-- `in`, `out` and their repeated forms in supervisor mode: `in` zero-extends what the device at r2 answers into r0, or stores it at r5,
and sets Z, N, P; `out` sends the low bytes of r0, or the bytes at r4, and keeps the flags; `out` to an unassigned address changes nothing
(46 R490 to R493, 42 R332, R333). A `repbc` entered with r1 = 0 follows the parameter. What the check of an operand, a load or a store
raises ends the instruction, which does nothing else (30 R209, 60 R525, R526).
Rests on choices the spec marks as its own (92 D2, D18, D33) and the model's choices of log 11, 24, 25, 27. -/
def Obligations.InOutResult : Prop :=
  ∀ (s t : State) (ss : Size) (x : Word) (ps : List Nat) (cc : Cond), s.xm = false →
    let n : Word := BitVec.ofNat 64 ss.bytes
    let v := ioRead s (getGpr s 2) ss.bytes
    let fl := setZNP s.flags v (8 * ss.bytes)
    let u : State := { setGpr s 5 (getGpr s 5 + n) with mem := s.mem.writeBytes ps (bytesLE ss.bytes v.toNat), flags := fl }
    let w : State := setGpr t 4 (getGpr s 4 + n)
    exec (.inp ss) s = .next { setGpr s 0 v with flags := fl, ip := s.ip + 2 } ∧ v.toNat < 2 ^ (8 * ss.bytes) ∧
    (x.toNat = (getGpr s 0).toNat % 2 ^ (8 * ss.bytes) → ioWrite s (getGpr s 2) ss.bytes x = .ok t →
      exec (.outp ss) s = .next { t with ip := s.ip + 2 }) ∧
    ((getGpr s 2).toNat < 2 ^ 32 → getGpr s 2 ≠ 0xfe80 → ¬ (0xff00 ≤ (getGpr s 2).toNat ∧ (getGpr s 2).toNat ≤ 0xffff) →
      ¬ (0x7f00 ≤ (getGpr s 2).toNat ∧ (getGpr s 2).toNat ≤ 0x7f7f) →
      exec (.outp ss) s = .next { s with ip := s.ip + 2 }) ∧
    (translateAll s false .write (getGpr s 5) ss.bytes = .ok ps →
      exec (.repbi cc (.inp ss)) s = .next { u with ip := if condHolds cc fl then s.ip + 4 else s.ip } ∧
      ((getGpr s 1 ≠ 0 ∨ s.cfg.repbcZeroEntry = .onceAndWrap) →
        exec (.repbc cc (.inp ss)) s = .next { setGpr u 1 (getGpr s 1 - 1) with
          ip := if condHolds cc fl = true ∨ getGpr s 1 = 1 then s.ip + 4 else s.ip })) ∧
    (memRead s (getGpr s 4) ss.bytes = .ok x → ioWrite s (getGpr s 2) ss.bytes x = .ok t →
      exec (.repbi cc (.outp ss)) s = .next { w with ip := if condHolds cc s.flags then s.ip + 4 else s.ip } ∧
      ((getGpr s 1 ≠ 0 ∨ s.cfg.repbcZeroEntry = .onceAndWrap) →
        exec (.repbc cc (.outp ss)) s = .next { setGpr w 1 (getGpr s 1 - 1) with
          ip := if condHolds cc s.flags = true ∨ getGpr s 1 = 1 then s.ip + 4 else s.ip })) ∧
    (getGpr s 1 = 0 → s.cfg.repbcZeroEntry = .skip →
      exec (.repbc cc (.inp ss)) s = .next { s with ip := s.ip + 4 } ∧
      exec (.repbc cc (.outp ss)) s = .next { s with ip := s.ip + 4 }) ∧
    (∀ f, x.toNat = (getGpr s 0).toNat % 2 ^ (8 * ss.bytes) → ioWrite s (getGpr s 2) ss.bytes x = .error f →
      Abandons (.outp ss) s f) ∧
    (∀ f, translateAll s false .write (getGpr s 5) ss.bytes = .error f → Abandons (.repbi cc (.inp ss)) s f ∧
      ((getGpr s 1 ≠ 0 ∨ s.cfg.repbcZeroEntry = .onceAndWrap) → Abandons (.repbc cc (.inp ss)) s f)) ∧
    (∀ f, memRead s (getGpr s 4) ss.bytes = .error f ∨
        (memRead s (getGpr s 4) ss.bytes = .ok x ∧ ioWrite s (getGpr s 2) ss.bytes x = .error f) →
      Abandons (.repbi cc (.outp ss)) s f ∧
      ((getGpr s 1 ≠ 0 ∨ s.cfg.repbcZeroEntry = .onceAndWrap) → Abandons (.repbc cc (.outp ss)) s f))

/-- The devices the spec defines: 0xfe80 answers the number of CPUs, an address below 2^32 that is not assigned reads 0 and ignores writes,
so do the devices of absent CPUs; the Register Load Pointer and the Control Word of a disabled CPU read what was written, those of the other
CPUs are kept; CPU 0 is enabled; from 2^32 on an address without a device of the machine's own reads 0 and ignores writes, one with such a
device answers any value; a cpuinfo query of an inactive CPU stores 64 bytes at a physical address, or is PF where it leaves the range (60
R570). The writes that stop by name: to 0xfe80; for an active CPU; to the Register Load Pointer of an enabled one; a Control Word that is
invalid, enables a CPU, goes to an enabled one or has machine-specific bits; another access size than the device's (46 R493, 60 R565 to
R568).
Rests on choices the spec marks as its own (92 D8, D33) and the model's choices of log 20, 24, 25, 31, 38. -/
def Obligations.Devices : Prop :=
  ∀ (s : State) (c : Fin 128) (v : Word) (n : Nat),
    let rlpAt : Word := 0xff00 + BitVec.ofNat 64 c.val
    let cecwAt : Word := 0xff80 + BitVec.ofNat 64 c.val
    let infoAt : Word := 0x7f00 + BitVec.ofNat 64 c.val
    ioRead s 0xfe80 2 = BitVec.ofNat 64 ((s.cfg.otherCpus + 1) % 2 ^ 16) ∧
    ioWrite s 0xfe80 n v = .error (.stop .cpuCountWrite) ∧
    (∀ a : Word, a.toNat < 2 ^ 32 → a ≠ 0xfe80 → ¬ (0xff00 ≤ a.toNat ∧ a.toNat ≤ 0xffff) →
      ¬ (0x7f00 ≤ a.toNat ∧ a.toNat ≤ 0x7f7f) → ioRead s a n = 0 ∧ ioWrite s a n v = .ok s) ∧
    (s.cfg.otherCpus < c.val → ∀ a ∈ [rlpAt, cecwAt, infoAt], ioRead s a n = 0 ∧ ioWrite s a n v = .ok s) ∧
    (0 < c.val → c.val ≤ s.cfg.otherCpus → s.cecw[c].getLsbD 0 = false →
      (physInRange s.cfg v = true → ∃ t, ioWrite s rlpAt 8 v = .ok t ∧ ioRead t rlpAt 8 = v ∧
        t = { s with rlp := t.rlp } ∧ ∀ d : Fin 128, d ≠ c → t.rlp[d] = s.rlp[d]) ∧
      (physInRange s.cfg v = false → ioWrite s rlpAt 8 v = .error (.stop .loadPointerOutOfRange)) ∧
      (v.getLsbD 0 = false → v.getLsbD 1 = false → v.extractLsb' 56 8 = 0#8 →
        ∃ t, ioWrite s cecwAt 8 v = .ok t ∧ ioRead t cecwAt 8 = v ∧
          t = { s with cecw := t.cecw } ∧ ∀ d : Fin 128, d ≠ c → t.cecw[d] = s.cecw[d]) ∧
      (v.getLsbD 0 = false → v.getLsbD 1 = true → ioWrite s cecwAt 8 v = .error (.stop .invalidControlWord)) ∧
      (v.getLsbD 0 = true → v.extractLsb' 8 48 = 0#48 → v.extractLsb' 56 8 = 0#8 →
        ioWrite s cecwAt 8 v = .error (.refuse .cpuEnable))) ∧
    (0 < c.val → c.val ≤ s.cfg.otherCpus → ¬ (s.cecw[c].getLsbD 0 = true ∧ s.cecw[c].getLsbD 1 = true) →
      (v.getLsbD 1 = false ∨ v.getLsbD 0 = true) → (v.getLsbD 0 = false ∨ v.extractLsb' 8 48 = 0#48) →
      (v.extractLsb' 56 8 ≠ 0#8 → ioWrite s cecwAt 8 v = .error (.refuse .machineControlBits)) ∧
      (v.extractLsb' 56 8 = 0#8 → s.cecw[c].getLsbD 0 = true → ioWrite s cecwAt 8 v = .error (.refuse .cpuEnable))) ∧
    (0 < c.val → c.val ≤ s.cfg.otherCpus → v.getLsbD 0 = true → v.extractLsb' 8 48 ≠ 0#48 →
      ¬ (s.cecw[c].getLsbD 0 = true ∧ s.cecw[c].getLsbD 1 = true) →
      ioWrite s cecwAt 8 v = .error (.stop .invalidControlWord)) ∧
    (c.val ≤ s.cfg.otherCpus → n ≠ 8 → ∀ a ∈ [rlpAt, cecwAt, infoAt], ioWrite s a n v = .error (.refuse .deviceAccessSize)) ∧
    (0 < c.val → c.val ≤ s.cfg.otherCpus → ¬ (s.cecw[c].getLsbD 0 = true ∧ s.cecw[c].getLsbD 1 = true) →
      ((∀ i < 64, physInRange s.cfg (v + BitVec.ofNat 64 i) = true ∧ present s.cfg (v + BitVec.ofNat 64 i) = true) →
        ∃ image : List Byte, image.length = 64 ∧
          ioWrite s infoAt 8 v = .ok { s with mem := s.mem.writeBytes ((List.range 64).map fun i => v.toNat + i) image } ∧
          (∀ k, 3 ≤ k → k ≤ 6 → slotOf image k = 0) ∧ (slotOf image 2).getLsbD 0 = true ∧
          ((slotOf image 2).extractLsb' 5 3).toNat ≤ 4) ∧
      ((∃ i < 64, physInRange s.cfg (v + BitVec.ofNat 64 i) = false) →
        ∃ f, ioWrite s infoAt 8 v = .error (.exc (.pf f)))) ∧
    (c.val ≤ s.cfg.otherCpus → ioRead s rlpAt 8 = s.rlp[c] ∧ (0 < c.val → ioRead s cecwAt 8 = s.cecw[c]) ∧
      (c.val = 0 → (ioRead s cecwAt 8).getLsbD 0 = true ∧ (ioRead s cecwAt 8).extractLsb' 8 48 = 0#48)) ∧
    (0 < c.val → s.cecw[c].getLsbD 0 = true → c.val ≤ s.cfg.otherCpus → ioWrite s rlpAt 8 v = .error (.stop .activeCpuDevice)) ∧
    (0 < c.val → s.cecw[c].getLsbD 0 = true → s.cecw[c].getLsbD 1 = true → c.val ≤ s.cfg.otherCpus →
      ∀ a ∈ [rlpAt, cecwAt, infoAt], ioWrite s a 8 v = .error (.stop .activeCpuDevice)) ∧
    (c.val = 0 → ∀ a ∈ [rlpAt, cecwAt, infoAt], ioWrite s a 8 v = .error (.stop .activeCpuDevice)) ∧
    (∀ a : Word, 2 ^ 32 ≤ a.toNat → ioWrite s a n v = .ok s ∧
      ((∀ r ∈ s.cfg.ioDevices, a.toNat < r.base ∨ r.base + r.size ≤ a.toNat) → ioRead s a n = 0) ∧
      ((∃ r ∈ s.cfg.ioDevices, r.base ≤ a.toNat ∧ a.toNat < r.base + r.size) →
        ioRead s a n = trunc (8 * n) (Config.deviceAnswer s.freeCtr a)))
end

