-- ==== Sys2Proof/Laws/Memory.lean ====
section
/-!
SUPPORT. Physical memory: a read after a write, and every operation keeps the canonical form.
-/

namespace Sys2Proof.Machine

/-! ### Reading after writing -/

theorem read_insert_same (m : Memory) (k : Nat) (v : Byte) (h : ∀ c ∈ m, c.1 ≠ k) : (Memory.insert m k v).read k = v := by
  induction m with
  | nil => simp [Memory.insert, Memory.read]
  | cons c m ih =>
    obtain ⟨a, b⟩ := c
    have ha : a ≠ k := h (a, b) (by simp)
    unfold Memory.insert
    split
    · simp [Memory.read]
    · simp only [Memory.read, if_neg (Ne.symm ha)]
      exact ih fun c hc => h c (by simp [hc])

theorem read_insert_other (m : Memory) (k a : Nat) (v : Byte) (h : a ≠ k) : (Memory.insert m k v).read a = m.read a := by
  induction m with
  | nil => simp [Memory.insert, Memory.read, h]
  | cons c m ih =>
    obtain ⟨x, b⟩ := c
    unfold Memory.insert
    split
    · simp [Memory.read, h]
    · simp [Memory.read, ih]

theorem read_filter_same (m : Memory) (k : Nat) : Memory.read (m.filter fun c => c.1 != k) k = Memory.unlisted := by
  induction m with
  | nil => rfl
  | cons c m ih =>
    obtain ⟨x, b⟩ := c
    by_cases hx : x = k
    · simp [hx, ih]
    · simp [hx, Memory.read, Ne.symm hx, ih]

theorem read_filter_other (m : Memory) (k a : Nat) (h : a ≠ k) : Memory.read (m.filter fun c => c.1 != k) a = m.read a := by
  induction m with
  | nil => rfl
  | cons c m ih =>
    obtain ⟨x, b⟩ := c
    by_cases hx : x = k
    · subst hx; simp [Memory.read, h, ih]
    · simp [hx, Memory.read, ih]

/-- A byte reads as what was written to it. -/
@[simp] theorem read_write_same (m : Memory) (k : Nat) (v : Byte) : (m.write k v).read k = v := by
  unfold Memory.write
  split
  · rename_i h; rw [read_filter_same, h]
  · exact read_insert_same _ _ _ (by simp)

/-- Writing a byte leaves the others. -/
theorem read_write_other (m : Memory) (k a : Nat) (v : Byte) (h : a ≠ k) : (m.write k v).read a = m.read a := by
  unfold Memory.write
  split
  · exact read_filter_other m k a h
  · simp only [read_insert_other _ _ _ _ h, read_filter_other m k a h]

/-- Writing bytes leaves the others. -/
theorem read_writeBytes_other (ps : List Nat) : ∀ (m : Memory) (bs : List Byte) (a : Nat), a ∉ ps →
    (m.writeBytes ps bs).read a = m.read a := by
  induction ps with
  | nil => intro m bs a _; simp [Memory.writeBytes]
  | cons p ps ih =>
    intro m bs a h
    cases bs with
    | nil => simp [Memory.writeBytes]
    | cons b bs =>
      simp only [List.mem_cons, not_or] at h
      rw [Memory.writeBytes, ih _ _ _ h.2, read_write_other _ _ _ _ h.1]

/-- Bytes stored at distinct addresses read back. -/
theorem readBytes_writeBytes_same (ps : List Nat) : ∀ (m : Memory) (bs : List Byte), ps.Nodup → bs.length = ps.length →
    (m.writeBytes ps bs).readBytes ps = bs := by
  induction ps with
  | nil => intro m bs _ h; simp_all [Memory.readBytes]
  | cons p ps ih =>
    intro m bs hd hl
    cases bs with
    | nil => simp at hl
    | cons b bs =>
      rw [List.nodup_cons] at hd
      have h := ih (m.write p b) bs hd.2 (by simpa using hl)
      simp only [Memory.readBytes, Memory.writeBytes, List.map_cons] at *
      rw [h, read_writeBytes_other _ _ _ _ hd.1, read_write_same]

/-! ### The canonical form -/

theorem insert_mem {m : Memory} {k : Nat} {v : Byte} {c : Host.Cell} (h : c ∈ Memory.insert m k v) : c = (k, v) ∨ c ∈ m := by
  induction m with
  | nil => simpa [Memory.insert] using h
  | cons x m ih =>
    obtain ⟨a, b⟩ := x
    unfold Memory.insert at h
    split at h
    · simpa using h
    · rcases List.mem_cons.1 h with h | h
      · exact .inr (by simp [h])
      · rcases ih h with h | h
        · exact .inl h
        · exact .inr (by simp [h])

theorem insert_pairwise {m : Memory} {k : Nat} {v : Byte} (hm : m.Pairwise (fun x y => x.1 < y.1)) (hk : ∀ c ∈ m, c.1 ≠ k) :
    (Memory.insert m k v).Pairwise (fun x y => x.1 < y.1) := by
  induction m with
  | nil => simp [Memory.insert]
  | cons x m ih =>
    obtain ⟨a, b⟩ := x
    rw [List.pairwise_cons] at hm
    have ha : a ≠ k := hk (a, b) (by simp)
    unfold Memory.insert
    split
    · rename_i h
      refine List.pairwise_cons.2 ⟨fun c hc => ?_, List.pairwise_cons.2 hm⟩
      rcases List.mem_cons.1 hc with rfl | hc
      · exact h
      · exact Nat.lt_trans h (hm.1 c hc)
    · rename_i h
      refine List.pairwise_cons.2 ⟨fun c hc => ?_, ih hm.2 fun c hc => hk c (by simp [hc])⟩
      rcases insert_mem hc with rfl | hc
      · show a < k; omega
      · exact hm.1 c hc

/-- Writing a byte keeps the canonical form. -/
theorem write_wf (m : Memory) (k : Nat) (v : Byte) (h : m.wf) : (m.write k v).wf := by
  have hp : (m.filter fun c => c.1 != k).Pairwise (fun x y => x.1 < y.1) := h.1.filter _
  unfold Memory.write
  split
  · exact ⟨hp, fun c hc => h.2 c (List.mem_filter.1 hc).1⟩
  · rename_i hv
    refine ⟨insert_pairwise hp (by simp), fun c hc => ?_⟩
    rcases insert_mem hc with rfl | hc
    · exact hv
    · exact h.2 c (List.mem_filter.1 hc).1

/-- Writing bytes keeps the canonical form. -/
theorem writeBytes_wf (ps : List Nat) : ∀ (m : Memory) (bs : List Byte), m.wf → (m.writeBytes ps bs).wf := by
  induction ps with
  | nil => intro m bs h; simpa [Memory.writeBytes] using h
  | cons p ps ih =>
    intro m bs h
    cases bs with
    | nil => simpa [Memory.writeBytes] using h
    | cons b bs => exact ih _ _ (write_wf m p b h)

/-- The empty memory is canonical. -/
theorem nil_wf : Memory.wf [] := ⟨List.Pairwise.nil, by simp⟩

/-- A boot image lists addresses from its base on. -/
theorem bootMemory_ge (bs : List Byte) : ∀ (a : Nat), ∀ c ∈ bootMemory a bs, a ≤ c.1 := by
  induction bs with
  | nil => simp [bootMemory]
  | cons b bs ih =>
    intro a c hc
    unfold bootMemory at hc
    split at hc
    · have := ih _ c hc; omega
    · rcases List.mem_cons.1 hc with rfl | hc
      · exact Nat.le_refl a
      · have := ih _ c hc; omega

/-- A boot image is in canonical form. -/
theorem bootMemory_wf (bs : List Byte) : ∀ a : Nat, (bootMemory a bs).wf := by
  induction bs with
  | nil => intro a; exact nil_wf
  | cons b bs ih =>
    intro a
    unfold bootMemory
    split
    · exact ih _
    · rename_i hb
      refine ⟨List.Pairwise.cons (fun c hc => ?_) (ih _).1, fun c hc => ?_⟩
      · have := bootMemory_ge bs _ c hc; simp only; omega
      · rcases List.mem_cons.1 hc with rfl | hc
        · exact hb
        · exact (ih _).2 c hc

/-- Below its base a boot image reads 0. -/
theorem bootMemory_read_lt (bs : List Byte) : ∀ (a k : Nat), k < a → (bootMemory a bs).read k = 0 := by
  induction bs with
  | nil => intro a k _; rfl
  | cons b bs ih =>
    intro a k hk
    unfold bootMemory
    split
    · exact ih _ _ (by omega)
    · simp only [Memory.read, if_neg (show ¬ k = a by omega)]
      exact ih _ _ (by omega)

/-- A boot image reads back its bytes, and 0 beyond them. -/
theorem bootMemory_read (bs : List Byte) : ∀ (a i : Nat), (bootMemory a bs).read (a + i) = bs.getD i 0 := by
  induction bs with
  | nil => intro a i; rfl
  | cons b bs ih =>
    intro a i
    unfold bootMemory
    cases i with
    | zero =>
      split
      · rename_i hb
        simpa [hb] using bootMemory_read_lt bs (a + 1) a (by omega)
      · simp [Memory.read]
    | succ i =>
      have e : a + (i + 1) = a + 1 + i := by omega
      split
      · simpa [e] using ih (a + 1) i
      · simp only [Memory.read, if_neg (show ¬ a + (i + 1) = a by omega)]
        simpa [e] using ih (a + 1) i

/-! ### Bytes of a value -/

@[simp] theorem bytesLE_length (n v : Nat) : (bytesLE n v).length = n := by
  induction n generalizing v with
  | zero => rfl
  | succ n ih => simp [bytesLE, ih]

/-- The little-endian bytes of a value give its low bytes back (20 R100). -/
theorem valueLE_bytesLE (n v : Nat) : valueLE (bytesLE n v) = v % 256 ^ n := by
  induction n generalizing v with
  | zero => simp [bytesLE, valueLE, Nat.mod_one]
  | succ n ih =>
    simp only [bytesLE, valueLE, ih, BitVec.toNat_ofNat]
    have h := Nat.mod_mul (x := v) (a := 256) (b := 256 ^ n)
    rw [Nat.mul_comm 256 (256 ^ n), ← Nat.pow_succ] at h
    exact h.symm

end Sys2Proof.Machine
end

