-- ==== Sys2Proof/Laws/State.lean ====
section
/-!
SUPPORT. What each update of the state leaves in each field: one lemma per field per update.
-/

namespace Sys2Proof.Machine

/-! ### setGpr. Writing a general register (10 R31). -/

@[simp] theorem setGpr_gpr (s : State) (r : BitVec 4) (v : Word) : (setGpr s r v).gpr = s.gpr.set r.toNat v := rfl
@[simp] theorem setGpr_ip (s : State) (r : BitVec 4) (v : Word) : (setGpr s r v).ip = s.ip := rfl
@[simp] theorem setGpr_flags (s : State) (r : BitVec 4) (v : Word) : (setGpr s r v).flags = s.flags := rfl
@[simp] theorem setGpr_mode (s : State) (r : BitVec 4) (v : Word) : (setGpr s r v).mode = s.mode := rfl
@[simp] theorem setGpr_cr0 (s : State) (r : BitVec 4) (v : Word) : (setGpr s r v).cr0 = s.cr0 := rfl
@[simp] theorem setGpr_page (s : State) (r : BitVec 4) (v : Word) : (setGpr s r v).page = s.page := rfl
@[simp] theorem setGpr_flprotect (s : State) (r : BitVec 4) (v : Word) : (setGpr s r v).flprotect = s.flprotect := rfl
@[simp] theorem setGpr_scdp (s : State) (r : BitVec 4) (v : Word) : (setGpr s r v).scdp = s.scdp := rfl
@[simp] theorem setGpr_scsp (s : State) (r : BitVec 4) (v : Word) : (setGpr s r v).scsp = s.scsp := rfl
@[simp] theorem setGpr_sccr (s : State) (r : BitVec 4) (v : Word) : (setGpr s r v).sccr = s.sccr := rfl
@[simp] theorem setGpr_itabp (s : State) (r : BitVec 4) (v : Word) : (setGpr s r v).itabp = s.itabp := rfl
@[simp] theorem setGpr_ciread (s : State) (r : BitVec 4) (v : Word) : (setGpr s r v).ciread = s.ciread := rfl
@[simp] theorem setGpr_fcode (s : State) (r : BitVec 4) (v : Word) : (setGpr s r v).fcode = s.fcode := rfl
@[simp] theorem setGpr_pfcharp (s : State) (r : BitVec 4) (v : Word) : (setGpr s r v).pfcharp = s.pfcharp := rfl
@[simp] theorem setGpr_msr (s : State) (r : BitVec 4) (v : Word) : (setGpr s r v).msr = s.msr := rfl
@[simp] theorem setGpr_halted (s : State) (r : BitVec 4) (v : Word) : (setGpr s r v).halted = s.halted := rfl
@[simp] theorem setGpr_nmi (s : State) (r : BitVec 4) (v : Word) : (setGpr s r v).nmi = s.nmi := rfl
@[simp] theorem setGpr_irq (s : State) (r : BitVec 4) (v : Word) : (setGpr s r v).irq = s.irq := rfl
@[simp] theorem setGpr_mem (s : State) (r : BitVec 4) (v : Word) : (setGpr s r v).mem = s.mem := rfl
@[simp] theorem setGpr_imem (s : State) (r : BitVec 4) (v : Word) : (setGpr s r v).imem = s.imem := rfl
@[simp] theorem setGpr_wmem (s : State) (r : BitVec 4) (v : Word) : (setGpr s r v).wmem = s.wmem := rfl
@[simp] theorem setGpr_wptl (s : State) (r : BitVec 4) (v : Word) : (setGpr s r v).wptl = s.wptl := rfl
@[simp] theorem setGpr_brCr0 (s : State) (r : BitVec 4) (v : Word) : (setGpr s r v).brCr0 = s.brCr0 := rfl
@[simp] theorem setGpr_brPage (s : State) (r : BitVec 4) (v : Word) : (setGpr s r v).brPage = s.brPage := rfl
@[simp] theorem setGpr_brMem (s : State) (r : BitVec 4) (v : Word) : (setGpr s r v).brMem = s.brMem := rfl
@[simp] theorem setGpr_rlp (s : State) (r : BitVec 4) (v : Word) : (setGpr s r v).rlp = s.rlp := rfl
@[simp] theorem setGpr_cecw (s : State) (r : BitVec 4) (v : Word) : (setGpr s r v).cecw = s.cecw := rfl
@[simp] theorem setGpr_cfg (s : State) (r : BitVec 4) (v : Word) : (setGpr s r v).cfg = s.cfg := rfl
@[simp] theorem setGpr_freeCtr (s : State) (r : BitVec 4) (v : Word) : (setGpr s r v).freeCtr = s.freeCtr := rfl

/-! ### branchTo. A taken branch (45 R422). -/

@[simp] theorem branchTo_gpr (s : State) (t : Word) : (branchTo s t).gpr = s.gpr := rfl
@[simp] theorem branchTo_ip (s : State) (t : Word) : (branchTo s t).ip = t := rfl
@[simp] theorem branchTo_flags (s : State) (t : Word) : (branchTo s t).flags = s.flags := rfl
@[simp] theorem branchTo_mode (s : State) (t : Word) : (branchTo s t).mode = s.mode := rfl
@[simp] theorem branchTo_cr0 (s : State) (t : Word) : (branchTo s t).cr0 = s.cr0 := rfl
@[simp] theorem branchTo_page (s : State) (t : Word) : (branchTo s t).page = s.page := rfl
@[simp] theorem branchTo_flprotect (s : State) (t : Word) : (branchTo s t).flprotect = s.flprotect := rfl
@[simp] theorem branchTo_scdp (s : State) (t : Word) : (branchTo s t).scdp = s.scdp := rfl
@[simp] theorem branchTo_scsp (s : State) (t : Word) : (branchTo s t).scsp = s.scsp := rfl
@[simp] theorem branchTo_sccr (s : State) (t : Word) : (branchTo s t).sccr = s.sccr := rfl
@[simp] theorem branchTo_itabp (s : State) (t : Word) : (branchTo s t).itabp = s.itabp := rfl
@[simp] theorem branchTo_ciread (s : State) (t : Word) : (branchTo s t).ciread = s.ciread := rfl
@[simp] theorem branchTo_fcode (s : State) (t : Word) : (branchTo s t).fcode = s.fcode := rfl
@[simp] theorem branchTo_pfcharp (s : State) (t : Word) : (branchTo s t).pfcharp = s.pfcharp := rfl
@[simp] theorem branchTo_msr (s : State) (t : Word) : (branchTo s t).msr = s.msr := rfl
@[simp] theorem branchTo_halted (s : State) (t : Word) : (branchTo s t).halted = s.halted := rfl
@[simp] theorem branchTo_nmi (s : State) (t : Word) : (branchTo s t).nmi = s.nmi := rfl
@[simp] theorem branchTo_irq (s : State) (t : Word) : (branchTo s t).irq = s.irq := rfl
@[simp] theorem branchTo_mem (s : State) (t : Word) : (branchTo s t).mem = s.mem := rfl
@[simp] theorem branchTo_imem (s : State) (t : Word) : (branchTo s t).imem = s.mem := rfl
@[simp] theorem branchTo_wmem (s : State) (t : Word) : (branchTo s t).wmem = s.mem := rfl
@[simp] theorem branchTo_wptl (s : State) (t : Word) : (branchTo s t).wptl = ptlBits s.cr0 := rfl
@[simp] theorem branchTo_brCr0 (s : State) (t : Word) : (branchTo s t).brCr0 = s.cr0 := rfl
@[simp] theorem branchTo_brPage (s : State) (t : Word) : (branchTo s t).brPage = s.page := rfl
@[simp] theorem branchTo_brMem (s : State) (t : Word) : (branchTo s t).brMem = s.mem := rfl
@[simp] theorem branchTo_rlp (s : State) (t : Word) : (branchTo s t).rlp = s.rlp := rfl
@[simp] theorem branchTo_cecw (s : State) (t : Word) : (branchTo s t).cecw = s.cecw := rfl
@[simp] theorem branchTo_cfg (s : State) (t : Word) : (branchTo s t).cfg = s.cfg := rfl
@[simp] theorem branchTo_freeCtr (s : State) (t : Word) : (branchTo s t).freeCtr = s.freeCtr := rfl

/-! ### syncCode. An instruction-stream synchronisation (20 R121). -/

@[simp] theorem syncCode_gpr (s : State) : (syncCode s).gpr = s.gpr := rfl
@[simp] theorem syncCode_ip (s : State) : (syncCode s).ip = s.ip := rfl
@[simp] theorem syncCode_flags (s : State) : (syncCode s).flags = s.flags := rfl
@[simp] theorem syncCode_mode (s : State) : (syncCode s).mode = s.mode := rfl
@[simp] theorem syncCode_cr0 (s : State) : (syncCode s).cr0 = s.cr0 := rfl
@[simp] theorem syncCode_page (s : State) : (syncCode s).page = s.page := rfl
@[simp] theorem syncCode_flprotect (s : State) : (syncCode s).flprotect = s.flprotect := rfl
@[simp] theorem syncCode_scdp (s : State) : (syncCode s).scdp = s.scdp := rfl
@[simp] theorem syncCode_scsp (s : State) : (syncCode s).scsp = s.scsp := rfl
@[simp] theorem syncCode_sccr (s : State) : (syncCode s).sccr = s.sccr := rfl
@[simp] theorem syncCode_itabp (s : State) : (syncCode s).itabp = s.itabp := rfl
@[simp] theorem syncCode_ciread (s : State) : (syncCode s).ciread = s.ciread := rfl
@[simp] theorem syncCode_fcode (s : State) : (syncCode s).fcode = s.fcode := rfl
@[simp] theorem syncCode_pfcharp (s : State) : (syncCode s).pfcharp = s.pfcharp := rfl
@[simp] theorem syncCode_msr (s : State) : (syncCode s).msr = s.msr := rfl
@[simp] theorem syncCode_halted (s : State) : (syncCode s).halted = s.halted := rfl
@[simp] theorem syncCode_nmi (s : State) : (syncCode s).nmi = s.nmi := rfl
@[simp] theorem syncCode_irq (s : State) : (syncCode s).irq = s.irq := rfl
@[simp] theorem syncCode_mem (s : State) : (syncCode s).mem = s.mem := rfl
@[simp] theorem syncCode_imem (s : State) : (syncCode s).imem = s.mem := rfl
@[simp] theorem syncCode_wmem (s : State) : (syncCode s).wmem = s.wmem := rfl
@[simp] theorem syncCode_wptl (s : State) : (syncCode s).wptl = s.wptl := rfl
@[simp] theorem syncCode_brCr0 (s : State) : (syncCode s).brCr0 = s.brCr0 := rfl
@[simp] theorem syncCode_brPage (s : State) : (syncCode s).brPage = s.brPage := rfl
@[simp] theorem syncCode_brMem (s : State) : (syncCode s).brMem = s.brMem := rfl
@[simp] theorem syncCode_rlp (s : State) : (syncCode s).rlp = s.rlp := rfl
@[simp] theorem syncCode_cecw (s : State) : (syncCode s).cecw = s.cecw := rfl
@[simp] theorem syncCode_cfg (s : State) : (syncCode s).cfg = s.cfg := rfl
@[simp] theorem syncCode_freeCtr (s : State) : (syncCode s).freeCtr = s.freeCtr := rfl

/-! ### putMsr. Writing a machine-specific register (10 R68). -/

@[simp] theorem putMsr_gpr (s : State) (k : Fin 7) (v : Word) : (putMsr s k v).gpr = s.gpr := rfl
@[simp] theorem putMsr_ip (s : State) (k : Fin 7) (v : Word) : (putMsr s k v).ip = s.ip := rfl
@[simp] theorem putMsr_flags (s : State) (k : Fin 7) (v : Word) : (putMsr s k v).flags = s.flags := rfl
@[simp] theorem putMsr_mode (s : State) (k : Fin 7) (v : Word) : (putMsr s k v).mode = s.mode := rfl
@[simp] theorem putMsr_cr0 (s : State) (k : Fin 7) (v : Word) : (putMsr s k v).cr0 = s.cr0 := rfl
@[simp] theorem putMsr_page (s : State) (k : Fin 7) (v : Word) : (putMsr s k v).page = s.page := rfl
@[simp] theorem putMsr_flprotect (s : State) (k : Fin 7) (v : Word) : (putMsr s k v).flprotect = s.flprotect := rfl
@[simp] theorem putMsr_scdp (s : State) (k : Fin 7) (v : Word) : (putMsr s k v).scdp = s.scdp := rfl
@[simp] theorem putMsr_scsp (s : State) (k : Fin 7) (v : Word) : (putMsr s k v).scsp = s.scsp := rfl
@[simp] theorem putMsr_sccr (s : State) (k : Fin 7) (v : Word) : (putMsr s k v).sccr = s.sccr := rfl
@[simp] theorem putMsr_itabp (s : State) (k : Fin 7) (v : Word) : (putMsr s k v).itabp = s.itabp := rfl
@[simp] theorem putMsr_ciread (s : State) (k : Fin 7) (v : Word) : (putMsr s k v).ciread = s.ciread := rfl
@[simp] theorem putMsr_fcode (s : State) (k : Fin 7) (v : Word) : (putMsr s k v).fcode = s.fcode := rfl
@[simp] theorem putMsr_pfcharp (s : State) (k : Fin 7) (v : Word) : (putMsr s k v).pfcharp = s.pfcharp := rfl
@[simp] theorem putMsr_msr (s : State) (k : Fin 7) (v : Word) : (putMsr s k v).msr = msrAfter s s.msr k v := rfl
@[simp] theorem putMsr_halted (s : State) (k : Fin 7) (v : Word) : (putMsr s k v).halted = s.halted := rfl
@[simp] theorem putMsr_nmi (s : State) (k : Fin 7) (v : Word) : (putMsr s k v).nmi = s.nmi := rfl
@[simp] theorem putMsr_irq (s : State) (k : Fin 7) (v : Word) : (putMsr s k v).irq = s.irq := rfl
@[simp] theorem putMsr_mem (s : State) (k : Fin 7) (v : Word) : (putMsr s k v).mem = s.mem := rfl
@[simp] theorem putMsr_imem (s : State) (k : Fin 7) (v : Word) : (putMsr s k v).imem = s.imem := rfl
@[simp] theorem putMsr_wmem (s : State) (k : Fin 7) (v : Word) : (putMsr s k v).wmem = s.wmem := rfl
@[simp] theorem putMsr_wptl (s : State) (k : Fin 7) (v : Word) : (putMsr s k v).wptl = s.wptl := rfl
@[simp] theorem putMsr_brCr0 (s : State) (k : Fin 7) (v : Word) : (putMsr s k v).brCr0 = s.brCr0 := rfl
@[simp] theorem putMsr_brPage (s : State) (k : Fin 7) (v : Word) : (putMsr s k v).brPage = s.brPage := rfl
@[simp] theorem putMsr_brMem (s : State) (k : Fin 7) (v : Word) : (putMsr s k v).brMem = s.brMem := rfl
@[simp] theorem putMsr_rlp (s : State) (k : Fin 7) (v : Word) : (putMsr s k v).rlp = s.rlp := rfl
@[simp] theorem putMsr_cecw (s : State) (k : Fin 7) (v : Word) : (putMsr s k v).cecw = s.cecw := rfl
@[simp] theorem putMsr_cfg (s : State) (k : Fin 7) (v : Word) : (putMsr s k v).cfg = s.cfg := rfl
@[simp] theorem putMsr_freeCtr (s : State) (k : Fin 7) (v : Word) : (putMsr s k v).freeCtr = s.freeCtr := rfl

/-- A machine-specific register that is plain storage holds what was written (10 R68). -/
theorem msrAfter_plain {s : State} (h : s.cfg.msrBehaviour ≠ .machine) (m : Vector Word 7) (k : Fin 7) (v : Word) :
    msrAfter s m k v = m.set k.val v := by
  simp [msrAfter, h]

/-- A machine-specific register that is plain storage reads as what it holds (10 R68). -/
theorem readMsr_plain {s : State} (h : s.cfg.msrBehaviour ≠ .machine) (k : Fin 7) : readMsr s k = s.msr[k.val] := by
  simp [readMsr, h]

/-! ### flushPages. A page-cache flush (20 R126). -/

@[simp] theorem flushPages_gpr (s : State) : (flushPages s).gpr = s.gpr := rfl
@[simp] theorem flushPages_ip (s : State) : (flushPages s).ip = s.ip := rfl
@[simp] theorem flushPages_flags (s : State) : (flushPages s).flags = s.flags := rfl
@[simp] theorem flushPages_mode (s : State) : (flushPages s).mode = s.mode := rfl
@[simp] theorem flushPages_cr0 (s : State) : (flushPages s).cr0 = s.cr0 := rfl
@[simp] theorem flushPages_page (s : State) : (flushPages s).page = s.page := rfl
@[simp] theorem flushPages_flprotect (s : State) : (flushPages s).flprotect = s.flprotect := rfl
@[simp] theorem flushPages_scdp (s : State) : (flushPages s).scdp = s.scdp := rfl
@[simp] theorem flushPages_scsp (s : State) : (flushPages s).scsp = s.scsp := rfl
@[simp] theorem flushPages_sccr (s : State) : (flushPages s).sccr = s.sccr := rfl
@[simp] theorem flushPages_itabp (s : State) : (flushPages s).itabp = s.itabp := rfl
@[simp] theorem flushPages_ciread (s : State) : (flushPages s).ciread = s.ciread := rfl
@[simp] theorem flushPages_fcode (s : State) : (flushPages s).fcode = s.fcode := rfl
@[simp] theorem flushPages_pfcharp (s : State) : (flushPages s).pfcharp = s.pfcharp := rfl
@[simp] theorem flushPages_msr (s : State) : (flushPages s).msr = s.msr := rfl
@[simp] theorem flushPages_halted (s : State) : (flushPages s).halted = s.halted := rfl
@[simp] theorem flushPages_nmi (s : State) : (flushPages s).nmi = s.nmi := rfl
@[simp] theorem flushPages_irq (s : State) : (flushPages s).irq = s.irq := rfl
@[simp] theorem flushPages_mem (s : State) : (flushPages s).mem = s.mem := rfl
@[simp] theorem flushPages_imem (s : State) : (flushPages s).imem = s.imem := rfl
@[simp] theorem flushPages_wmem (s : State) : (flushPages s).wmem = s.mem := rfl
@[simp] theorem flushPages_wptl (s : State) : (flushPages s).wptl = ptlBits s.cr0 := rfl
@[simp] theorem flushPages_brCr0 (s : State) : (flushPages s).brCr0 = s.brCr0 := rfl
@[simp] theorem flushPages_brPage (s : State) : (flushPages s).brPage = s.brPage := rfl
@[simp] theorem flushPages_brMem (s : State) : (flushPages s).brMem = s.brMem := rfl
@[simp] theorem flushPages_rlp (s : State) : (flushPages s).rlp = s.rlp := rfl
@[simp] theorem flushPages_cecw (s : State) : (flushPages s).cecw = s.cecw := rfl
@[simp] theorem flushPages_cfg (s : State) : (flushPages s).cfg = s.cfg := rfl
@[simp] theorem flushPages_freeCtr (s : State) : (flushPages s).freeCtr = s.freeCtr := rfl

/-! ### tick. The free-value counter (log 4). -/

@[simp] theorem tick_gpr (s : State) : (tick s).gpr = s.gpr := rfl
@[simp] theorem tick_ip (s : State) : (tick s).ip = s.ip := rfl
@[simp] theorem tick_flags (s : State) : (tick s).flags = s.flags := rfl
@[simp] theorem tick_mode (s : State) : (tick s).mode = s.mode := rfl
@[simp] theorem tick_cr0 (s : State) : (tick s).cr0 = s.cr0 := rfl
@[simp] theorem tick_page (s : State) : (tick s).page = s.page := rfl
@[simp] theorem tick_flprotect (s : State) : (tick s).flprotect = s.flprotect := rfl
@[simp] theorem tick_scdp (s : State) : (tick s).scdp = s.scdp := rfl
@[simp] theorem tick_scsp (s : State) : (tick s).scsp = s.scsp := rfl
@[simp] theorem tick_sccr (s : State) : (tick s).sccr = s.sccr := rfl
@[simp] theorem tick_itabp (s : State) : (tick s).itabp = s.itabp := rfl
@[simp] theorem tick_ciread (s : State) : (tick s).ciread = s.ciread := rfl
@[simp] theorem tick_fcode (s : State) : (tick s).fcode = s.fcode := rfl
@[simp] theorem tick_pfcharp (s : State) : (tick s).pfcharp = s.pfcharp := rfl
@[simp] theorem tick_msr (s : State) : (tick s).msr = s.msr := rfl
@[simp] theorem tick_halted (s : State) : (tick s).halted = s.halted := rfl
@[simp] theorem tick_nmi (s : State) : (tick s).nmi = s.nmi := rfl
@[simp] theorem tick_irq (s : State) : (tick s).irq = s.irq := rfl
@[simp] theorem tick_mem (s : State) : (tick s).mem = s.mem := rfl
@[simp] theorem tick_imem (s : State) : (tick s).imem = s.imem := rfl
@[simp] theorem tick_wmem (s : State) : (tick s).wmem = s.wmem := rfl
@[simp] theorem tick_wptl (s : State) : (tick s).wptl = s.wptl := rfl
@[simp] theorem tick_brCr0 (s : State) : (tick s).brCr0 = s.brCr0 := rfl
@[simp] theorem tick_brPage (s : State) : (tick s).brPage = s.brPage := rfl
@[simp] theorem tick_brMem (s : State) : (tick s).brMem = s.brMem := rfl
@[simp] theorem tick_rlp (s : State) : (tick s).rlp = s.rlp := rfl
@[simp] theorem tick_cecw (s : State) : (tick s).cecw = s.cecw := rfl
@[simp] theorem tick_cfg (s : State) : (tick s).cfg = s.cfg := rfl
@[simp] theorem tick_freeCtr (s : State) : (tick s).freeCtr = s.freeCtr + 1 := rfl

/-! ### pushAt. A push (41 R295). -/

@[simp] theorem pushAt_gpr (s : State) (ps : List Nat) (v : Word) : (pushAt s ps v).gpr = s.gpr.set 7 (getGpr s 7 - 8) := rfl
@[simp] theorem pushAt_ip (s : State) (ps : List Nat) (v : Word) : (pushAt s ps v).ip = s.ip := rfl
@[simp] theorem pushAt_flags (s : State) (ps : List Nat) (v : Word) : (pushAt s ps v).flags = s.flags := rfl
@[simp] theorem pushAt_mode (s : State) (ps : List Nat) (v : Word) : (pushAt s ps v).mode = s.mode := rfl
@[simp] theorem pushAt_cr0 (s : State) (ps : List Nat) (v : Word) : (pushAt s ps v).cr0 = s.cr0 := rfl
@[simp] theorem pushAt_page (s : State) (ps : List Nat) (v : Word) : (pushAt s ps v).page = s.page := rfl
@[simp] theorem pushAt_flprotect (s : State) (ps : List Nat) (v : Word) : (pushAt s ps v).flprotect = s.flprotect := rfl
@[simp] theorem pushAt_scdp (s : State) (ps : List Nat) (v : Word) : (pushAt s ps v).scdp = s.scdp := rfl
@[simp] theorem pushAt_scsp (s : State) (ps : List Nat) (v : Word) : (pushAt s ps v).scsp = s.scsp := rfl
@[simp] theorem pushAt_sccr (s : State) (ps : List Nat) (v : Word) : (pushAt s ps v).sccr = s.sccr := rfl
@[simp] theorem pushAt_itabp (s : State) (ps : List Nat) (v : Word) : (pushAt s ps v).itabp = s.itabp := rfl
@[simp] theorem pushAt_ciread (s : State) (ps : List Nat) (v : Word) : (pushAt s ps v).ciread = s.ciread := rfl
@[simp] theorem pushAt_fcode (s : State) (ps : List Nat) (v : Word) : (pushAt s ps v).fcode = s.fcode := rfl
@[simp] theorem pushAt_pfcharp (s : State) (ps : List Nat) (v : Word) : (pushAt s ps v).pfcharp = s.pfcharp := rfl
@[simp] theorem pushAt_msr (s : State) (ps : List Nat) (v : Word) : (pushAt s ps v).msr = s.msr := rfl
@[simp] theorem pushAt_halted (s : State) (ps : List Nat) (v : Word) : (pushAt s ps v).halted = s.halted := rfl
@[simp] theorem pushAt_nmi (s : State) (ps : List Nat) (v : Word) : (pushAt s ps v).nmi = s.nmi := rfl
@[simp] theorem pushAt_irq (s : State) (ps : List Nat) (v : Word) : (pushAt s ps v).irq = s.irq := rfl
@[simp] theorem pushAt_mem (s : State) (ps : List Nat) (v : Word) : (pushAt s ps v).mem = s.mem.writeBytes ps (bytesLE 8 v.toNat) := rfl
@[simp] theorem pushAt_imem (s : State) (ps : List Nat) (v : Word) : (pushAt s ps v).imem = s.imem := rfl
@[simp] theorem pushAt_wmem (s : State) (ps : List Nat) (v : Word) : (pushAt s ps v).wmem = s.wmem := rfl
@[simp] theorem pushAt_wptl (s : State) (ps : List Nat) (v : Word) : (pushAt s ps v).wptl = s.wptl := rfl
@[simp] theorem pushAt_brCr0 (s : State) (ps : List Nat) (v : Word) : (pushAt s ps v).brCr0 = s.brCr0 := rfl
@[simp] theorem pushAt_brPage (s : State) (ps : List Nat) (v : Word) : (pushAt s ps v).brPage = s.brPage := rfl
@[simp] theorem pushAt_brMem (s : State) (ps : List Nat) (v : Word) : (pushAt s ps v).brMem = s.brMem := rfl
@[simp] theorem pushAt_rlp (s : State) (ps : List Nat) (v : Word) : (pushAt s ps v).rlp = s.rlp := rfl
@[simp] theorem pushAt_cecw (s : State) (ps : List Nat) (v : Word) : (pushAt s ps v).cecw = s.cecw := rfl
@[simp] theorem pushAt_cfg (s : State) (ps : List Nat) (v : Word) : (pushAt s ps v).cfg = s.cfg := rfl
@[simp] theorem pushAt_freeCtr (s : State) (ps : List Nat) (v : Word) : (pushAt s ps v).freeCtr = s.freeCtr := rfl

/-! ### loadGprs. Loading r0..r15 from an image (41 R304). -/

@[simp] theorem loadGprs_gpr (s : State) (image : List Byte) : (loadGprs s image).gpr = Vector.ofFn fun i => slotOf image i.val := rfl
@[simp] theorem loadGprs_ip (s : State) (image : List Byte) : (loadGprs s image).ip = s.ip := rfl
@[simp] theorem loadGprs_flags (s : State) (image : List Byte) : (loadGprs s image).flags = s.flags := rfl
@[simp] theorem loadGprs_mode (s : State) (image : List Byte) : (loadGprs s image).mode = s.mode := rfl
@[simp] theorem loadGprs_cr0 (s : State) (image : List Byte) : (loadGprs s image).cr0 = s.cr0 := rfl
@[simp] theorem loadGprs_page (s : State) (image : List Byte) : (loadGprs s image).page = s.page := rfl
@[simp] theorem loadGprs_flprotect (s : State) (image : List Byte) : (loadGprs s image).flprotect = s.flprotect := rfl
@[simp] theorem loadGprs_scdp (s : State) (image : List Byte) : (loadGprs s image).scdp = s.scdp := rfl
@[simp] theorem loadGprs_scsp (s : State) (image : List Byte) : (loadGprs s image).scsp = s.scsp := rfl
@[simp] theorem loadGprs_sccr (s : State) (image : List Byte) : (loadGprs s image).sccr = s.sccr := rfl
@[simp] theorem loadGprs_itabp (s : State) (image : List Byte) : (loadGprs s image).itabp = s.itabp := rfl
@[simp] theorem loadGprs_ciread (s : State) (image : List Byte) : (loadGprs s image).ciread = s.ciread := rfl
@[simp] theorem loadGprs_fcode (s : State) (image : List Byte) : (loadGprs s image).fcode = s.fcode := rfl
@[simp] theorem loadGprs_pfcharp (s : State) (image : List Byte) : (loadGprs s image).pfcharp = s.pfcharp := rfl
@[simp] theorem loadGprs_msr (s : State) (image : List Byte) : (loadGprs s image).msr = s.msr := rfl
@[simp] theorem loadGprs_halted (s : State) (image : List Byte) : (loadGprs s image).halted = s.halted := rfl
@[simp] theorem loadGprs_nmi (s : State) (image : List Byte) : (loadGprs s image).nmi = s.nmi := rfl
@[simp] theorem loadGprs_irq (s : State) (image : List Byte) : (loadGprs s image).irq = s.irq := rfl
@[simp] theorem loadGprs_mem (s : State) (image : List Byte) : (loadGprs s image).mem = s.mem := rfl
@[simp] theorem loadGprs_imem (s : State) (image : List Byte) : (loadGprs s image).imem = s.imem := rfl
@[simp] theorem loadGprs_wmem (s : State) (image : List Byte) : (loadGprs s image).wmem = s.wmem := rfl
@[simp] theorem loadGprs_wptl (s : State) (image : List Byte) : (loadGprs s image).wptl = s.wptl := rfl
@[simp] theorem loadGprs_brCr0 (s : State) (image : List Byte) : (loadGprs s image).brCr0 = s.brCr0 := rfl
@[simp] theorem loadGprs_brPage (s : State) (image : List Byte) : (loadGprs s image).brPage = s.brPage := rfl
@[simp] theorem loadGprs_brMem (s : State) (image : List Byte) : (loadGprs s image).brMem = s.brMem := rfl
@[simp] theorem loadGprs_rlp (s : State) (image : List Byte) : (loadGprs s image).rlp = s.rlp := rfl
@[simp] theorem loadGprs_cecw (s : State) (image : List Byte) : (loadGprs s image).cecw = s.cecw := rfl
@[simp] theorem loadGprs_cfg (s : State) (image : List Byte) : (loadGprs s image).cfg = s.cfg := rfl
@[simp] theorem loadGprs_freeCtr (s : State) (image : List Byte) : (loadGprs s image).freeCtr = s.freeCtr := rfl

/-! ### advance. Advancing an address register (42 R330). -/

@[simp] theorem advance_gpr (s : State) (r : BitVec 4) (n : Nat) : (advance s r n).gpr = s.gpr.set r.toNat (getGpr s r + BitVec.ofNat 64 n) := rfl
@[simp] theorem advance_ip (s : State) (r : BitVec 4) (n : Nat) : (advance s r n).ip = s.ip := rfl
@[simp] theorem advance_flags (s : State) (r : BitVec 4) (n : Nat) : (advance s r n).flags = s.flags := rfl
@[simp] theorem advance_mode (s : State) (r : BitVec 4) (n : Nat) : (advance s r n).mode = s.mode := rfl
@[simp] theorem advance_cr0 (s : State) (r : BitVec 4) (n : Nat) : (advance s r n).cr0 = s.cr0 := rfl
@[simp] theorem advance_page (s : State) (r : BitVec 4) (n : Nat) : (advance s r n).page = s.page := rfl
@[simp] theorem advance_flprotect (s : State) (r : BitVec 4) (n : Nat) : (advance s r n).flprotect = s.flprotect := rfl
@[simp] theorem advance_scdp (s : State) (r : BitVec 4) (n : Nat) : (advance s r n).scdp = s.scdp := rfl
@[simp] theorem advance_scsp (s : State) (r : BitVec 4) (n : Nat) : (advance s r n).scsp = s.scsp := rfl
@[simp] theorem advance_sccr (s : State) (r : BitVec 4) (n : Nat) : (advance s r n).sccr = s.sccr := rfl
@[simp] theorem advance_itabp (s : State) (r : BitVec 4) (n : Nat) : (advance s r n).itabp = s.itabp := rfl
@[simp] theorem advance_ciread (s : State) (r : BitVec 4) (n : Nat) : (advance s r n).ciread = s.ciread := rfl
@[simp] theorem advance_fcode (s : State) (r : BitVec 4) (n : Nat) : (advance s r n).fcode = s.fcode := rfl
@[simp] theorem advance_pfcharp (s : State) (r : BitVec 4) (n : Nat) : (advance s r n).pfcharp = s.pfcharp := rfl
@[simp] theorem advance_msr (s : State) (r : BitVec 4) (n : Nat) : (advance s r n).msr = s.msr := rfl
@[simp] theorem advance_halted (s : State) (r : BitVec 4) (n : Nat) : (advance s r n).halted = s.halted := rfl
@[simp] theorem advance_nmi (s : State) (r : BitVec 4) (n : Nat) : (advance s r n).nmi = s.nmi := rfl
@[simp] theorem advance_irq (s : State) (r : BitVec 4) (n : Nat) : (advance s r n).irq = s.irq := rfl
@[simp] theorem advance_mem (s : State) (r : BitVec 4) (n : Nat) : (advance s r n).mem = s.mem := rfl
@[simp] theorem advance_imem (s : State) (r : BitVec 4) (n : Nat) : (advance s r n).imem = s.imem := rfl
@[simp] theorem advance_wmem (s : State) (r : BitVec 4) (n : Nat) : (advance s r n).wmem = s.wmem := rfl
@[simp] theorem advance_wptl (s : State) (r : BitVec 4) (n : Nat) : (advance s r n).wptl = s.wptl := rfl
@[simp] theorem advance_brCr0 (s : State) (r : BitVec 4) (n : Nat) : (advance s r n).brCr0 = s.brCr0 := rfl
@[simp] theorem advance_brPage (s : State) (r : BitVec 4) (n : Nat) : (advance s r n).brPage = s.brPage := rfl
@[simp] theorem advance_brMem (s : State) (r : BitVec 4) (n : Nat) : (advance s r n).brMem = s.brMem := rfl
@[simp] theorem advance_rlp (s : State) (r : BitVec 4) (n : Nat) : (advance s r n).rlp = s.rlp := rfl
@[simp] theorem advance_cecw (s : State) (r : BitVec 4) (n : Nat) : (advance s r n).cecw = s.cecw := rfl
@[simp] theorem advance_cfg (s : State) (r : BitVec 4) (n : Nat) : (advance s r n).cfg = s.cfg := rfl
@[simp] theorem advance_freeCtr (s : State) (r : BitVec 4) (n : Nat) : (advance s r n).freeCtr = s.freeCtr := rfl

/-! ### Reading registers back -/

/-- A general register reads what was written to it (10 R31). -/
@[simp] theorem getGpr_setGpr_same (s : State) (r : BitVec 4) (v : Word) : getGpr (setGpr s r v) r = v := by
  simp [getGpr, setGpr]

/-- Writing a general register leaves the others (10 R31). -/
theorem getGpr_setGpr_other (s : State) (r q : BitVec 4) (v : Word) (h : q ≠ r) : getGpr (setGpr s r v) q = getGpr s q := by
  have hn : r.toNat ≠ q.toNat := fun e => h (BitVec.eq_of_toNat_eq e.symm)
  simp [getGpr, setGpr, hn]

/-- A register file that is the same reads the same. -/
theorem getGpr_congr {s t : State} (h : t.gpr = s.gpr) (r : BitVec 4) : getGpr t r = getGpr s r := by
  simp [getGpr, h]

/-- Writing `cr0` changes `cr0`, and with PG what walks may still see (20 R125). -/
theorem putCr0_eq (s : State) (v : Word) :
    putCr0 s v = { s with
      cr0 := v
      wmem := if pagingOn v = pagingOn s.cr0 then s.wmem else s.mem
      wptl := if pagingOn v = pagingOn s.cr0 then s.wptl else ptlBits v } := by
  unfold putCr0
  split <;> simp [flushPages, *]

end Sys2Proof.Machine
end

