-- ==== Sys2Proof/Laws/Ops.lean ====
section
/-!
SUPPORT. One lemma per shared operation: if it answers, what it answered; provers cite these instead of unfolding the operation.
-/

namespace Sys2Proof.Machine

/-! ### Sequencing -/

/-- A sequence of checks and operations answers exactly if each part does. -/
theorem bind_ok_iff {α β : Type} (x : Except Trap α) (f : α → Except Trap β) (b : β) :
    (x >>= f) = .ok b ↔ ∃ a, x = .ok a ∧ f a = .ok b := by
  cases x <;> simp [bind, Except.bind]

@[simp] theorem bind_ok {α β : Type} (a : α) (f : α → Except Trap β) : ((Except.ok a : Except Trap α) >>= f) = f a := rfl

@[simp] theorem bind_error {α β : Type} (t : Trap) (f : α → Except Trap β) :
    ((Except.error t : Except Trap α) >>= f) = .error t := rfl

@[simp] theorem require_true (t : Trap) : require true t = .ok () := rfl

@[simp] theorem require_false (t : Trap) : require false t = .error t := rfl

theorem require_ok_iff (b : Bool) (t : Trap) (u : Unit) : require b t = .ok u ↔ b = true := by
  cases b <;> simp

theorem require_error_iff (b : Bool) (t e : Trap) : require b t = .error e ↔ b = false ∧ t = e := by
  cases b <;> simp

/-! ### What an instruction answers -/

@[simp] theorem finish_ok (s t : State) : finish s (.ok t) = .next t := rfl

@[simp] theorem finish_exc (s : State) (e : Exc) : finish s (.error (.exc e)) = .next (takeException s e) := rfl

@[simp] theorem finish_stop (s : State) (f : Fault) : finish s (.error (.stop f)) = .fault f := rfl

@[simp] theorem finish_refuse (s : State) (f : Refusal) : finish s (.error (.refuse f)) = .refused f := rfl

/-- A next state is the instruction's own, or the one after the exception it raised. -/
theorem finish_next_iff (s t : State) (r : Except Trap State) :
    finish s r = .next t ↔ r = .ok t ∨ ∃ e, r = .error (.exc e) ∧ t = takeException s e := by
  rcases r with (e | f | f) | u <;> simp [eq_comm]

/-! ### Memory -/

/-- An access of `n` bytes goes to `n` physical addresses. -/
theorem translateAll_length {s : State} {xm : Bool} {k : Access} {va : Word} {n : Nat} {ps : List Nat}
    (h : translateAll s xm k va n = .ok ps) : ps.length = n := by
  induction n generalizing va ps with
  | zero => simp_all [translateAll, eq_comm]
  | succ n ih =>
    simp only [translateAll, bind_ok_iff] at h
    obtain ⟨p, _, qs, hq, h⟩ := h
    simp only [Except.ok.injEq] at h
    subst h
    simp [ih hq]

theorem memBytes_ok_iff (s : State) (va : Word) (n : Nat) (bs : List Byte) :
    memBytes s va n = .ok bs ↔ ∃ ps, translateAll s s.xm .read va n = .ok ps ∧ s.mem.readBytes ps = bs := by
  simp [memBytes, bind_ok_iff]

theorem memRead_ok_iff (s : State) (va : Word) (n : Nat) (v : Word) :
    memRead s va n = .ok v ↔ ∃ ps, translateAll s s.xm .read va n = .ok ps ∧ s.mem.readValue ps = v := by
  simp [memRead, bind_ok_iff]

/-- An access reported in another mode answers the same. -/
theorem reportMode_ok_iff {α : Type} (xm : Bool) (r : Except Trap α) (a : α) : reportMode xm r = .ok a ↔ r = .ok a := by
  unfold reportMode
  split <;> simp

/-- Only these fields of the state decide where an address goes (20 R147, R150). -/
theorem translate_congr {s t : State} (h0 : t.cr0 = s.cr0) (h1 : t.page = s.page) (h2 : t.mem = s.mem) (h3 : t.wmem = s.wmem)
    (h4 : t.wptl = s.wptl) (h5 : t.cfg = s.cfg) (h6 : t.freeCtr = s.freeCtr) : translate t = translate s := by
  have he : walkEntry t = walkEntry s := by
    funext a
    unfold walkEntry
    rw [h2, h3, h6]
  have hs : walkStep t = walkStep s := by
    funext xm k va table ptl n
    unfold walkStep
    rw [he, h5]
  have hw : ∀ (xm : Bool) (k : Access) (va : Word) (ptl n : Nat) (table : Word) (x y : Bool),
      walk t xm k va ptl n table x y = walk s xm k va ptl n table x y := by
    intro xm k va ptl n
    induction n with
    | zero => intros; rfl
    | succ n ih => intros; simp only [walk, hs, ih]
  have hp : walkPtl t = walkPtl s := by
    funext va
    unfold walkPtl
    rw [h0, h4, h6]
  funext xm k va
  simp only [translate, translatePhysical, translateVirtual, hp, hw, h0, h1, h5]

/-- A translation with paging off (20 R150). -/
theorem translate_physical_ok_iff {s : State} {xm : Bool} {k : Access} {va : Word} {p : Nat} (h : pagingOn s.cr0 = false) :
    translate s xm k va = .ok p ↔ physInRange s.cfg va = true ∧ present s.cfg va = true ∧ va.toNat = p := by
  simp [translate, h, translatePhysical, bind_ok_iff, require_ok_iff]

/-! ### Registers and the explicit writes -/

theorem msrCheck_ok_iff (s : State) (n : Nat) (u : Unit) :
    msrCheck s n = .ok u ↔ isMsr n = false ∨ s.cfg.msrBehaviour ≠ .refuse := by
  simp [msrCheck, require_ok_iff]

/-- An instruction that may write register `n` is in supervisor mode, or `n` is a gpr (10 R39). -/
theorem regWriteCheck_ok {s : State} {n : Nat} {u : Unit} (h : regWriteCheck s n = .ok u) : n < 16 ∨ s.xm = false := by
  unfold regWriteCheck at h
  split at h <;> rename_i hc
  · cases h
  · cases h
  · cases h
  · cases h
  · simp only [bind_ok_iff, require_ok_iff] at h
    obtain ⟨_, h, _⟩ := h
    exact .inr (by simpa using h)
  · left
    unfold regClass at hc
    by_contra hn
    simp only [hn, if_false] at hc
    split at hc
    · cases hc
    split at hc
    · cases hc
    split at hc
    · cases hc
    split at hc <;> cases hc

theorem modeCheck_ok_iff (s : State) (v : Word) (u : Unit) :
    modeCheck s v = .ok u ↔ s.xm = true ∨ modeXM v = modeXMM v := by
  simp [modeCheck, require_ok_iff, modeAccepted]

theorem cr0Check_ok {s : State} {v : Word} {u : Unit} (h : cr0Check s v = .ok u) :
    v &&& ~~~0x3b#64 = 0 ∧ ptlOf v ≤ s.cfg.vas.val := by
  simp only [cr0Check, bind_ok_iff, require_ok_iff] at h
  obtain ⟨_, h1, _, h2, _⟩ := h
  exact ⟨by simpa using h1, by simpa using h2⟩

theorem sccrCheck_ok_iff (s : State) (v : Word) (u : Unit) :
    sccrCheck s v = .ok u ↔ (v ^^^ s.sccr) &&& ~~~2#64 = 0 := by
  simp [sccrCheck, require_ok_iff]

/-- What writing any register leaves alone; the gprs too, unless it is one of them. -/
theorem putReg_frame (s : State) (n : Nat) (v : Word) :
    let t := putReg s n v
    t.mem = s.mem ∧ t.imem = s.imem ∧ t.flags = s.flags ∧ t.mode = s.mode ∧ t.ip = s.ip ∧ t.halted = s.halted ∧ t.nmi = s.nmi ∧
      t.irq = s.irq ∧ t.brCr0 = s.brCr0 ∧ t.brPage = s.brPage ∧ t.brMem = s.brMem ∧ t.rlp = s.rlp ∧ t.cecw = s.cecw ∧
      t.cfg = s.cfg ∧ t.freeCtr = s.freeCtr ∧ (t.wmem = s.wmem ∨ t.wmem = s.mem) ∧ (t.wptl = s.wptl ∨ t.wptl = ptlBits t.cr0) ∧
      (16 ≤ n → t.gpr = s.gpr) ∧
      (n ≠ 128 → t.cr0 = s.cr0) ∧ (n ≠ 133 → t.sccr = s.sccr) ∧ (n = 128 → t.cr0 = v) ∧ (n = 133 → t.sccr = v) := by
  unfold putReg
  by_cases hn : n < 16
  · simp [hn]; omega
  · simp only [hn, if_false]
    split <;> simp [putCr0, flushPages]
    split <;> simp
    simp_all

/-- Writing a gpr writes that gpr only. -/
theorem putReg_gpr (s : State) (r : BitVec 4) (v : Word) : putReg s r.toNat v = setGpr s r v := by
  have h : r.toNat < 16 := by omega
  simp [putReg, h]

/-! ### Operands -/

/-- A register that may be written may be read (10 R39). -/
theorem regReadCheck_of_write {s : State} {n : Nat} (h : regWriteCheck s n = .ok ()) : regReadCheck s n = .ok () := by
  unfold regWriteCheck at h
  unfold regReadCheck
  split at h <;> simp_all

/-- The checks of an operand that is read and written are those of its write (30 R209). -/
theorem opUpdateCheck_eq (s : State) (a : Operand) : opUpdateCheck s a = opWriteCheck s a := by
  cases a with
  | reg sz r =>
    cases h : regWriteCheck s r.toNat with
    | error e => simp [opUpdateCheck, opWriteCheck, h]
    | ok u => simp [opUpdateCheck, opWriteCheck, opReadCheck, h, regReadCheck_of_write h]
  | _ => rfl

theorem opUpdateCheck_ok_iff (s : State) (a : Operand) (u : Unit) :
    opUpdateCheck s a = .ok u ↔ opReadCheck s a = .ok () ∧ opWriteCheck s a = .ok () := by
  simp only [opUpdateCheck, bind_ok_iff]
  exact ⟨fun ⟨_, hw, hr⟩ => ⟨hr, hw⟩, fun ⟨hr, hw⟩ => ⟨(), hw, hr⟩⟩

/-- The destination of an operand: its register at its size, or physical addresses of its size (30 R206, R207). -/
theorem destOf_ok {s : State} {next : Word} {a : Operand} {d : Dest} (h : destOf s next a = .ok d) :
    (∃ sz r, a = .reg sz r ∧ d = .reg r.toNat (sizeBits sz)) ∨
      (isMem a = true ∧ ∃ ps, d = .mem ps ∧ translateAll s s.xm .write (addrOf s next a) (bitsOf a / 8) = .ok ps) := by
  cases a with
  | reg sz r => left; exact ⟨sz, r, rfl, by simpa [destOf, eq_comm] using h⟩
  | ind i k sz b =>
    right
    simp only [destOf, bind_ok_iff] at h
    obtain ⟨ps, hp, h⟩ := h
    exact ⟨rfl, ps, by simpa [eq_comm] using h, by simpa [bitsOf, sizeBits] using hp⟩
  | mref rel imm sz =>
    right
    simp only [destOf, bind_ok_iff] at h
    obtain ⟨ps, hp, h⟩ := h
    exact ⟨rfl, ps, by simpa [eq_comm] using h, by simpa [bitsOf, sizeBits] using hp⟩
  | short rel imm => simp [destOf] at h
  | long rel imm => simp [destOf] at h

/-- What writing any destination leaves alone (30 R206, R207). -/
theorem putDest_frame (s : State) (d : Dest) (v : Word) :
    let t := putDest s d v
    t.mode = s.mode ∧ t.ip = s.ip ∧ t.halted = s.halted ∧ t.nmi = s.nmi ∧ t.irq = s.irq ∧ t.imem = s.imem ∧ t.brCr0 = s.brCr0 ∧
      t.brPage = s.brPage ∧ t.brMem = s.brMem ∧ t.rlp = s.rlp ∧ t.cecw = s.cecw ∧ t.cfg = s.cfg ∧ t.freeCtr = s.freeCtr := by
  cases d with
  | reg n bits =>
    have h := putReg_frame s n (trunc bits v)
    simp only [putDest]
    simp_all
  | flags => simp [putDest]
  | mem ps => simp [putDest]

/-! ### Branches -/

theorem checkTarget_ok_iff (s : State) (xm : Bool) (t : Word) (u : Unit) :
    checkTarget s xm t = .ok u ↔ t.getLsbD 0 = false ∧ ∃ p, translate (flushPages s) xm .fetch t = .ok p := by
  unfold checkTarget
  simp only [bind_ok_iff, require_ok_iff]
  simp

theorem jumpState_ok_iff (t : Word) (s u : State) :
    jumpState t s = .ok u ↔ checkTarget s s.xm t = .ok () ∧ branchTo s t = u := by
  simp only [jumpState, bind_ok_iff, Except.ok.injEq]
  exact ⟨fun ⟨_, h⟩ => h, fun h => ⟨(), h⟩⟩

theorem condState_ok {cc : Cond} {rel : Bool} {imm : Imm} {s u : State} (h : condState cc rel imm s = .ok u) :
    (condHolds cc s.flags = false ∧ u = { s with ip := nextImm s imm }) ∨
      (condHolds cc s.flags = true ∧ checkTarget s s.xm (immTarget rel imm (nextImm s imm)) = .ok () ∧
        u = branchTo s (immTarget rel imm (nextImm s imm))) := by
  unfold condState at h
  split at h <;> rename_i hc
  · rw [jumpState_ok_iff] at h
    exact .inr ⟨hc, h.1, h.2.symm⟩
  · exact .inl ⟨by simpa using hc, by simpa [eq_comm] using h⟩

theorem callState_ok {t next : Word} {s u : State} (h : callState t next s = .ok u) :
    ∃ ps, translateAll s s.xm .write (getGpr s 7 - 8) 8 = .ok ps ∧ checkTarget s s.xm t = .ok () ∧
      u = branchTo (pushAt s ps next) t := by
  simp only [callState, pushCheck, bind_ok_iff] at h
  obtain ⟨ps, hp, _, hc, h⟩ := h
  exact ⟨ps, hp, hc, by simpa [eq_comm] using h⟩

theorem fastCallState_ok {t next : Word} {s u : State} (h : fastCallState t next s = .ok u) :
    checkTarget s s.xm t = .ok () ∧ u = branchTo (setGpr s 14 next) t := by
  simp only [fastCallState, bind_ok_iff] at h
  obtain ⟨_, hc, h⟩ := h
  exact ⟨hc, by simpa [eq_comm] using h⟩

theorem setModeAndGo_ok {s u : State} {m t : Word} (h : setModeAndGo s m t = .ok u) :
    modeCheck s m = .ok () ∧ checkTarget s (modeXM (writtenMode s m)) t = .ok () ∧
      u = branchTo { s with mode := writtenMode s m } t := by
  simp only [setModeAndGo, bind_ok_iff] at h
  obtain ⟨_, h1, _, h2, h⟩ := h
  exact ⟨h1, h2, by simpa [eq_comm] using h⟩

/-! ### Taking an exception or interrupt -/

/-- A successful entry (60 R533). -/
theorem enter_ok {s t : State} {v : Nat} {ip flags sp : Word} (h : enter s v ip flags sp = .ok t) :
    ∃ e ps, itabEntry s v = .ok e ∧ translateAll s false .write (frameStack s e.sp - 32) 32 = .ok ps ∧
      checkTarget s false e.ip = .ok () ∧
      t = enterSupervisor s ps (frameBytes ip s.mode flags sp) (frameStack s e.sp - 32) e.ip := by
  unfold enter at h
  cases he : itabEntry s v with
  | error x => simp [he, bind, Except.bind] at h
  | ok e =>
    simp only [he, bind, Except.bind] at h
    split at h
    · rename_i ps _ hp hc
      exact ⟨e, ps, rfl, hp, hc, by simpa [eq_comm] using h⟩
    · simp at h

/-- What every delivery leaves: the state after a successful entry, or a reset CPU. -/
inductive Delivered (s : State) : State → Prop where
  | entered {v : Nat} {ip flags sp fcode : Word} {m : Memory} {t : State}
      (h : enter { s with fcode := fcode, mem := m } v ip flags sp = .ok t) : Delivered s t
  | reset (m : Memory) : Delivered s (resetCpu { s with mem := m })

theorem deliverAbort_delivered (s : State) : Delivered s (deliverAbort s) := by
  unfold deliverAbort
  split
  · rename_i t h
    exact .entered (m := s.mem) h
  · exact .reset s.mem

theorem deliverException_delivered (s : State) (v : Nat) (ip : Word) : Delivered s (deliverException s v ip) := by
  unfold deliverException
  split
  · rename_i t h
    exact .entered (fcode := s.fcode) (m := s.mem) h
  · exact .reset s.mem
  · exact deliverAbort_delivered s

theorem Delivered.of_fcode {s t : State} {f : Word} (h : Delivered { s with fcode := f } t) : Delivered s t := by
  cases h with
  | entered h => exact .entered h
  | reset m => exact .reset m

theorem Delivered.of_fcode_mem {s t : State} {f : Word} {m : Memory} (h : Delivered { s with fcode := f, mem := m } t) :
    Delivered s t := by
  cases h with
  | entered h => exact .entered h
  | reset m => exact .reset m

/-- Every synchronous exception is delivered by an entry or resets the CPU. -/
theorem takeException_delivered (s : State) (e : Exc) : Delivered s (takeException s e) := by
  cases e with
  | und => exact (deliverException_delivered _ _ _).of_fcode
  | prot => exact (deliverException_delivered _ _ _).of_fcode
  | xa t => exact (deliverException_delivered _ _ _).of_fcode
  | div => exact (deliverException_delivered _ _ _).of_fcode
  | pf i =>
    simp only [takeException]
    split
    · rename_i t h
      unfold writeFaultInfo at h
      split at h
      · simp only [Option.some.injEq] at h
        subst h
        exact (deliverException_delivered _ _ _).of_fcode
      · split at h
        · split at h
          · simp only [Option.some.injEq] at h
            subst h
            exact (deliverException_delivered _ _ _).of_fcode_mem
          · simp at h
        · simp at h
    · exact deliverAbort_delivered s

/-- An interrupt is delivered by an entry, resets the CPU, or, for the Debug Trap, is dropped (60 R534). -/
theorem deliverInterrupt_delivered (s : State) (v : Nat) (ip protIp : Word) :
    Delivered s (deliverInterrupt s v ip protIp) ∨ deliverInterrupt s v ip protIp = { s with ip := ip, halted := false } := by
  unfold deliverInterrupt
  split
  · rename_i t h
    exact .inl (.entered (fcode := s.fcode) (m := s.mem) h)
  · exact .inl (.reset s.mem)
  · exact .inl (deliverException_delivered _ _ _).of_fcode
  · split
    · exact .inr rfl
    · exact .inl (deliverAbort_delivered s)

/-- A delivery leaves the machine in supervisor mode. -/
theorem Delivered.xm {s t : State} (h : Delivered s t) : t.xm = false := by
  cases h with
  | entered h =>
    obtain ⟨e, ps, _, _, _, rfl⟩ := enter_ok h
    simp [enterSupervisor, State.xm, modeXM, supervisorMode, setBit]
  | reset m => simp [resetCpu, State.xm, modeXM, State.initial]

/-- A return from a frame (46 R472). -/
theorem returnFrame_ok {s u : State} (h : returnFrame s = .ok u) :
    ∃ t m f p, memRead s (getGpr s 7) 8 = .ok t ∧ memRead s (getGpr s 7 + 8) 8 = .ok m ∧
      memRead s (getGpr s 7 + 16) 8 = .ok f ∧ memRead s (getGpr s 7 + 24) 8 = .ok p ∧ modeCheck s m = .ok () ∧
      checkTarget s (modeXM (writtenMode s m)) t = .ok () ∧
      u = branchTo (setGpr { s with flags := writtenFlags s f, mode := writtenMode s m } 7 p) t := by
  simp only [returnFrame, bind_ok_iff] at h
  obtain ⟨t, h1, m, h2, f, h3, p, h4, _, h5, _, h6, h⟩ := h
  exact ⟨t, m, f, p, h1, h2, h3, h4, h5, h6, by simpa [eq_comm] using h⟩

/-! ### Shared operations of the instruction families -/

theorem aluTwo_ok {op : AluOp} {l f : Bool} {a b : Operand} {s u : State} (h : aluTwo op l f a b s = .ok u) :
    aluShape l a b = true ∧ opReadCheck s a = .ok () ∧ opWriteCheck s a = .ok () ∧ opReadCheck s b = .ok () ∧
      ∃ x y dst, loadOp s (nextIp s [a, b]) a = .ok x ∧ loadOp s (nextIp s [a, b]) b = .ok y ∧
        destOf s (nextIp s [a, b]) a = .ok dst ∧ destCheck s dst (trunc (bitsOf a) (op.apply x y)) = .ok () ∧
        u = { putDest s dst (trunc (bitsOf a) (op.apply x y)) with
          flags := if f then s.flags else aluFlagsWide op s.flags (bitsOf a) x y (trunc (bitsOf a) (op.apply x y)) s.freeCtr
          ip := nextIp s [a, b] } := by
  simp only [aluTwo, bind_ok_iff, require_ok_iff, opUpdateCheck_ok_iff] at h
  obtain ⟨_, h1, _, ⟨h2, h3⟩, _, h4, x, hx, y, hy, dst, hd, _, h5, h⟩ := h
  exact ⟨h1, h2, h3, h4, x, y, dst, hx, hy, hd, h5, by simpa [eq_comm] using h⟩

theorem aluGprDst_ok {op : AluOp} {g : BitVec 4} {a : Operand} {s u : State} (h : aluGprDst op g a s = .ok u) :
    opReadCheck s a = .ok () ∧ ∃ y, loadOp s (nextIp s [a]) a = .ok y ∧
      let x := trunc (impliedBits a) (getGpr s g)
      let r := trunc (impliedBits a) (op.apply x y)
      u = { setGpr s g r with flags := aluFlags op s.flags (impliedBits a) x y r, ip := nextIp s [a] } := by
  simp only [aluGprDst, bind_ok_iff] at h
  obtain ⟨_, h1, y, hy, h⟩ := h
  exact ⟨h1, y, hy, by simpa [eq_comm] using h⟩

theorem aluGprSrc_ok {op : AluOp} {g : BitVec 4} {a : Operand} {s u : State} (h : aluGprSrc op g a s = .ok u) :
    isWritable a = true ∧ opReadCheck s a = .ok () ∧ opWriteCheck s a = .ok () ∧
      ∃ x dst, loadOp s (nextIp s [a]) a = .ok x ∧ destOf s (nextIp s [a]) a = .ok dst ∧
        let y := trunc (bitsOf a) (getGpr s g)
        let r := trunc (bitsOf a) (op.apply x y)
        destCheck s dst r = .ok () ∧
        u = { putDest s dst r with flags := aluFlags op s.flags (bitsOf a) x y r, ip := nextIp s [a] } := by
  simp only [aluGprSrc, bind_ok_iff, require_ok_iff, opUpdateCheck_ok_iff] at h
  obtain ⟨_, h1, _, ⟨h2, h3⟩, x, hx, dst, hd, _, h4, h⟩ := h
  exact ⟨h1, h2, h3, x, dst, hx, hd, h4, by simpa [eq_comm] using h⟩

theorem shiftTwo_ok {op : ShiftOp} {l f : Bool} {a b : Operand} {s u : State} (h : shiftTwo op l f a b s = .ok u) :
    aluShape l a b = true ∧ opReadCheck s a = .ok () ∧ opWriteCheck s a = .ok () ∧ opReadCheck s b = .ok () ∧
      ∃ x c dst, loadOp s (nextIp s [a, b]) a = .ok x ∧ loadOp s (nextIp s [a, b]) b = .ok c ∧
        destOf s (nextIp s [a, b]) a = .ok dst ∧
        let r := op.apply (bitsOf a) x c.toNat (flagC s.flags)
        destCheck s dst r.value = .ok () ∧
        u = { putDest s dst r.value with
          flags := if f then s.flags else shiftFlags s (bitsOf a) r, ip := nextIp s [a, b] } := by
  simp only [shiftTwo, bind_ok_iff, require_ok_iff, opUpdateCheck_ok_iff] at h
  obtain ⟨_, h1, _, ⟨h2, h3⟩, _, h4, x, hx, c, hc, dst, hd, _, h5, h⟩ := h
  exact ⟨h1, h2, h3, h4, x, c, dst, hx, hc, hd, h5, by simpa [eq_comm] using h⟩

theorem shiftGpr_ok {op : ShiftOp} {g : BitVec 4} {a : Operand} {s u : State} (h : shiftGpr op g a s = .ok u) :
    opReadCheck s a = .ok () ∧ ∃ c, loadOp s (nextIp s [a]) a = .ok c ∧
      let r := op.apply (impliedBits a) (trunc (impliedBits a) (getGpr s g)) c.toNat (flagC s.flags)
      u = { setGpr s g r.value with flags := shiftFlags s (impliedBits a) r, ip := nextIp s [a] } := by
  simp only [shiftGpr, bind_ok_iff] at h
  obtain ⟨_, h1, c, hc, h⟩ := h
  exact ⟨h1, c, hc, by simpa [eq_comm] using h⟩

theorem unaryState_ok {op : UnaryOp} {l f : Bool} {a : Operand} {s u : State} (h : unaryState op l f a s = .ok u) :
    unaryShape l a = true ∧ opReadCheck s a = .ok () ∧ opWriteCheck s a = .ok () ∧
      ∃ x dst, loadOp s (nextIp s [a]) a = .ok x ∧ destOf s (nextIp s [a]) a = .ok dst ∧
        destCheck s dst (trunc (bitsOf a) (op.apply x)) = .ok () ∧
        u = { putDest s dst (trunc (bitsOf a) (op.apply x)) with
          flags := if f then s.flags else setZNP s.flags (trunc (bitsOf a) (op.apply x)) (bitsOf a), ip := nextIp s [a] } := by
  simp only [unaryState, bind_ok_iff, require_ok_iff, opUpdateCheck_ok_iff] at h
  obtain ⟨_, h1, _, ⟨h2, h3⟩, x, hx, dst, hd, _, h4, h⟩ := h
  exact ⟨h1, h2, h3, x, dst, hx, hd, h4, by simpa [eq_comm] using h⟩

theorem cmpxchgState_ok {fail : Bool} {a b c : Operand} {s u : State} (h : cmpxchgState fail a b c s = .ok u) :
    xchgShape a b = true ∧ opWriteCheck s a = .ok () ∧ opWriteCheck s b = .ok () ∧
      ∃ x e n da db, loadOp s (nextIp s [a, b, c]) a = .ok x ∧ loadOp s (nextIp s [a, b, c]) b = .ok e ∧
        loadOp s (nextIp s [a, b, c]) c = .ok n ∧ destOf s (nextIp s [a, b, c]) a = .ok da ∧
        destOf s (nextIp s [a, b, c]) b = .ok db ∧
        let equal := x == e && !fail
        let dst := if equal then da else db
        let v := if equal then n else x
        destCheck s dst v = .ok () ∧ u = { putDest s dst v with flags := setBit s.flags 1 equal, ip := nextIp s [a, b, c] } := by
  simp only [cmpxchgState, bind_ok_iff, require_ok_iff, opUpdateCheck_ok_iff] at h
  obtain ⟨_, h1, _, ⟨_, h2⟩, _, ⟨_, h3⟩, _, _, x, hx, e, he, n, hn, da, ha, db, hb, _, hc, h⟩ := h
  exact ⟨h1, h2, h3, x, e, n, da, db, hx, he, hn, ha, hb, hc, (Except.ok.inj h).symm⟩

theorem storeImage_ok {a : Operand} {image : List Byte} {s u : State} (h : storeImage a image s = .ok u) :
    isMem a = true ∧ ∃ ps, translateAll s s.xm .write (addrOf s (nextIp s [a]) a) image.length = .ok ps ∧
      u = { s with mem := s.mem.writeBytes ps image, ip := nextIp s [a] } := by
  simp only [storeImage, bind_ok_iff, require_ok_iff] at h
  obtain ⟨_, h1, ps, hp, h⟩ := h
  exact ⟨h1, ps, hp, by simpa [eq_comm] using h⟩

theorem pushImage_ok {image : List Byte} {s u : State} (h : pushImage image s = .ok u) :
    ∃ ps, translateAll s s.xm .write (getGpr s 7 - BitVec.ofNat 64 image.length) image.length = .ok ps ∧
      u = { setGpr { s with mem := s.mem.writeBytes ps image } 7 (getGpr s 7 - BitVec.ofNat 64 image.length) with
        ip := nextAfter s 2 } := by
  simp only [pushImage, bind_ok_iff] at h
  obtain ⟨ps, hp, h⟩ := h
  exact ⟨ps, hp, by simpa [eq_comm] using h⟩

theorem restoreGprs_ok {base next : Word} {s u : State} (h : restoreGprs base next s = .ok u) :
    ∃ image, memBytes s base 128 = .ok image ∧ u = { loadGprs s image with ip := next } := by
  simp only [restoreGprs, bind_ok_iff] at h
  obtain ⟨image, hi, h⟩ := h
  exact ⟨image, hi, by simpa [eq_comm] using h⟩

theorem restoreProgram_ok {base next : Word} {s u : State} (h : restoreProgram base next s = .ok u) :
    ∃ image, memBytes s base 256 = .ok image ∧ modeCheck s (slotOf image 18) = .ok () ∧
      u = syncCode { loadGprs s image with
        flags := writtenFlags s (slotOf image 17), mode := writtenMode s (slotOf image 18), ip := next } := by
  simp only [restoreProgram, bind_ok_iff] at h
  obtain ⟨image, hi, _, _, _, hm, h⟩ := h
  exact ⟨image, hi, hm, by simpa [eq_comm] using h⟩

/-- What a device write may change: the two per-CPU registers, or memory by a query (60 R567, R568, R570). -/
theorem ioWrite_ok {s t : State} {a : Word} {n : Nat} {v : Word} (h : ioWrite s a n v = .ok t) :
    t = { s with rlp := t.rlp, cecw := t.cecw, mem := t.mem } := by
  unfold ioWrite at h
  split at h
  · simp only [Except.ok.injEq] at h; subst h; rfl
  · simp at h
  all_goals try (simp only [Except.ok.injEq] at h; subst h; rfl)
  all_goals
    unfold writeCpuDevice at h
    split at h
    · split at h
      · first
        | (simp only [writeLoadPointer, bind_ok_iff, require_ok_iff] at h
           obtain ⟨_, _, _, _, h⟩ := h
           simp only [Except.ok.injEq] at h; subst h; rfl)
        | (simp only [writeControlWord, bind_ok_iff, require_ok_iff] at h
           obtain ⟨_, _, _, _, _, _, _, _, _, _, h⟩ := h
           simp only [Except.ok.injEq] at h; subst h; rfl)
        | (simp only [writeCpuInfoQuery, bind_ok_iff, require_ok_iff] at h
           obtain ⟨_, _, _, _, h⟩ := h
           simp only [Except.ok.injEq] at h; subst h; rfl)
      · simp at h
    · simp only [Except.ok.injEq] at h; subst h; rfl

/-! ### The mapping of executed code (20 R151, log 18) -/

/-- Only these fields decide where an address is mapped by the tables in memory. -/
theorem mappedTo_congr {s t : State} (h0 : t.cr0 = s.cr0) (h1 : t.page = s.page) (h2 : t.mem = s.mem) (h3 : t.cfg = s.cfg)
    (va : Word) : mappedTo t va = mappedTo s va := by
  have hp : walkPtl (flushPages t) va = walkPtl (flushPages s) va := by
    simp [walkPtl, ptlOf, h0]
  have he : walkEntry (flushPages t) = walkEntry (flushPages s) := by
    funext a; simp [walkEntry, h2]
  have hs : walkStep (flushPages t) = walkStep (flushPages s) := by
    funext xm k va table ptl n; simp [walkStep, he, h3]
  have hw : ∀ (xm : Bool) (k : Access) (va : Word) (ptl n : Nat) (table : Word) (x y : Bool),
      walk (flushPages t) xm k va ptl n table x y = walk (flushPages s) xm k va ptl n table x y := by
    intro xm k va ptl n
    induction n with
    | zero => intros; rfl
    | succ n ih => intros; simp only [walk, hs, ih]
  simp only [mappedTo, translate, translatePhysical, translateVirtual, hp, hw, flushPages_cr0, flushPages_page, flushPages_cfg,
    h0, h1, h3]
  rfl

/-- Giving `cr0` the PTL field that it has changes nothing. -/
theorem withPtlOf_same {a b : Word} (h : ptlBits a = ptlBits b) : withPtlOf a b = a := by
  apply BitVec.eq_of_getLsbD_eq
  intro i hi
  have hb (k : Nat) : (k < 3 && a.getLsbD (3 + k)) = (k < 3 && b.getLsbD (3 + k)) := by
    have := congrArg (fun x : BitVec 3 => x.getLsbD k) h
    simpa [ptlBits] using this
  have h0 := hb 0
  have h1 := hb 1
  have h2 := hb 2
  have hm : ∀ i < 64, (0x38#64).getLsbD i = decide (i = 3 ∨ i = 4 ∨ i = 5) := by decide
  simp only [withPtlOf, BitVec.getLsbD_or, BitVec.getLsbD_and, BitVec.getLsbD_not, hm i hi, hi, decide_true, Bool.true_and]
  by_cases h3 : i = 3 ∨ i = 4 ∨ i = 5
  · rcases h3 with rfl | rfl | rfl <;> simp_all
  · simp [h3]

/-- A step that keeps `cr0`, `page` and memory keeps every mapping. -/
theorem keepsOwnMapping_of_same {s t : State} (h0 : t.cr0 = s.cr0) (h1 : t.page = s.page) (h2 : t.mem = s.mem)
    (h3 : t.cfg = s.cfg) (next : Word) : keepsOwnMapping s t next = true := by
  simp [keepsOwnMapping, keepsExecuted, keepsMapping, sameMappingAs, mappedTo_congr h0 h1 h2 h3]

/-- With paging off before and after, every mapping is kept. -/
theorem keepsOwnMapping_of_off {s t : State} (hs : pagingOn s.cr0 = false) (ht : pagingOn t.cr0 = false) (next : Word) :
    keepsOwnMapping s t next = true := by
  simp [keepsOwnMapping, keepsExecuted, keepsMapping, sameMappingAs, hs, ht]

/-- A step that goes on after the mapping check is the step before it, and the mapping is kept or the CPU reset. -/
theorem checkMapping_next_iff (s t : State) (next : Word) (o : Host.Outcome State Fault Refusal) :
    checkMapping s next o = .next t ↔ o = .next t ∧ mayContinue s t next = true := by
  cases o with
  | next u =>
    simp only [checkMapping]
    split
    · simp only [Host.Outcome.next.injEq]
      constructor
      · rintro rfl; exact ⟨rfl, ‹_›⟩
      · exact fun h => h.1
    · simp only [Host.Outcome.next.injEq, reduceCtorEq, false_iff]
      rintro ⟨rfl, h⟩; exact absurd h ‹_›
  | fault f => simp [checkMapping]
  | refused f => simp [checkMapping]

/-- Where the step may continue, the mapping check changes nothing. -/
theorem checkMapping_of_mayContinue {s t : State} {next : Word} (h : mayContinue s t next = true) :
    checkMapping s next (.next t) = .next t := by
  simp [checkMapping, h]

/-! ### Side effects of the machine-specific registers (10 R68, log 15) -/

/-- In program mode no machine-specific register is accessed. -/
theorem accessesMsr_program {s : State} (i : Instr) (h : s.xm = true) : accessesMsr s i = false := by
  simp [accessesMsr, h]

/-- Only a machine that gives them a behaviour of its own makes an access to them count. -/
theorem accessesMsr_behaviour {s : State} (i : Instr) (h : s.cfg.msrBehaviour ≠ .machine) : accessesMsr s i = false := by
  simp [accessesMsr, h]

/-- An instruction that accesses none of them has no side effects. -/
theorem accessEffects_of_not {s : State} {i : Instr} (h : accessesMsr s i = false) (o : Host.Outcome State Fault Refusal) :
    accessEffects s i o = o := by
  cases o <;> simp [accessEffects, h]

/-- A next state after the side effects is the instruction's own, or what an effect makes of it, or that of an exception. -/
theorem accessEffects_next {s u : State} {i : Instr} {o : Host.Outcome State Fault Refusal} (h : accessEffects s i o = .next u) :
    ∃ t, o = .next t ∧ (u = t ∨ (∃ e, machineApply t t.ip e = .ok u) ∨ ∃ x, u = takeException s x) := by
  cases o with
  | fault f => simp [accessEffects] at h
  | refused f => simp [accessEffects] at h
  | next t =>
    refine ⟨t, rfl, ?_⟩
    simp only [accessEffects] at h
    split at h
    · split at h
      · rename_i e _
        rcases (finish_next_iff _ _ _).1 h with h | ⟨x, _, h⟩
        · exact .inr (.inl ⟨e, h⟩)
        · exact .inr (.inr ⟨x, h⟩)
      · rename_i x _
        rw [finish_exc, Host.Outcome.next.injEq] at h
        exact .inr (.inr ⟨x, h.symm⟩)
    · rw [Host.Outcome.next.injEq] at h
      exact .inl h.symm

/-! ### Machine-specific instructions (46 R475, log 23) -/

/-- What the register writes of a machine-specific instruction leave alone, and that `cr0` and `sccr` stay legal. -/
theorem machineRegisters_ok {l : List (BitVec 8 × Word)} : ∀ {s u : State}, machineRegisters s l = .ok u →
    u.mem = s.mem ∧ u.imem = s.imem ∧ u.flags = s.flags ∧ u.mode = s.mode ∧ u.ip = s.ip ∧ u.halted = s.halted ∧ u.nmi = s.nmi ∧
      u.irq = s.irq ∧ u.brCr0 = s.brCr0 ∧ u.brPage = s.brPage ∧ u.brMem = s.brMem ∧ u.rlp = s.rlp ∧ u.cecw = s.cecw ∧
      u.cfg = s.cfg ∧ u.freeCtr = s.freeCtr ∧ (u.wmem = s.wmem ∨ u.wmem = s.mem) ∧
      (u.cr0 = s.cr0 ∨ (u.cr0 &&& ~~~0x3b#64 = 0 ∧ ptlOf u.cr0 ≤ s.cfg.vas.val)) ∧
      (u.sccr ^^^ s.sccr) &&& ~~~2#64 = 0 := by
  induction l with
  | nil =>
    intro s u h
    simp only [machineRegisters, Except.ok.injEq] at h
    subst h
    simp
  | cons c l ih =>
    obtain ⟨n, v⟩ := c
    intro s u h
    simp only [machineRegisters, bind_ok_iff] at h
    obtain ⟨_, _, _, hv, h⟩ := h
    have f := putReg_frame s n.toNat v
    obtain ⟨g1, g2, g3, g4, g5, g6, g7, g8, g9, g10, g11, g12, g13, g14, g15, g16, g17, g18⟩ := ih h
    simp only at f
    obtain ⟨f1, f2, f3, f4, f5, f6, f7, f8, f9, f10, f11, f12, f13, f14, f15, f16, _, _, f19, f20, f21, f22⟩ := f
    refine ⟨g1.trans f1, g2.trans f2, g3.trans f3, g4.trans f4, g5.trans f5, g6.trans f6, g7.trans f7, g8.trans f8, g9.trans f9,
      g10.trans f10, g11.trans f11, g12.trans f12, g13.trans f13, g14.trans f14, g15.trans f15, ?_, ?_, ?_⟩
    · rw [f1] at g16
      rcases g16 with g | g
      · rwa [g]
      · exact .inr g
    · rcases g17 with g | g
      · by_cases hn : n.toNat = 128
        · rw [regValueCheck, if_pos hn] at hv
          rw [g, f21 hn]
          exact .inr (cr0Check_ok hv)
        · exact .inl (g.trans (f19 hn))
      · rw [f14] at g
        exact .inr g
    · by_cases hn : n.toNat = 133
      · have h128 : n.toNat ≠ 128 := by omega
        rw [regValueCheck, if_neg h128, if_pos hn, sccrCheck_ok_iff] at hv
        rw [f22 hn] at g18
        have : u.sccr ^^^ s.sccr = (u.sccr ^^^ v) ^^^ (v ^^^ s.sccr) := by
          rw [BitVec.xor_assoc, ← BitVec.xor_assoc v v, BitVec.xor_self, BitVec.zero_xor]
        rw [this]
        have d : ∀ a b c : Word, (a ^^^ b) &&& c = (a &&& c) ^^^ (b &&& c) := by
          intro a b c; ext i hi; simp [Bool.and_xor_distrib_right]
        rw [d, g18, hv]; rfl
      · rwa [f20 hn] at g18

/-- What a machine-specific instruction leaves that completes: its register writes, then flags, memory and caches, then `ip`. -/
theorem machineApply_ok {s u : State} {next : Word} {e : MachineEffect} (h : machineApply s next e = .ok u) :
    ∃ r, machineRegisters s e.registers = .ok r ∧
      let w := { r with flags := writtenFlags r e.flags, mem := machineStores r.cfg r.mem e.stores, halted := e.halts }
      let x := if e.flushes = true then syncCode (flushPages w) else w
      (e.target = none ∧ u = { x with ip := next }) ∨
        ∃ t, e.target = some t ∧ checkTarget x x.xm t = .ok () ∧ u = branchTo x t := by
  simp only [machineApply, bind_ok_iff] at h
  obtain ⟨r, hr, h⟩ := h
  refine ⟨r, hr, ?_⟩
  cases ht : e.target with
  | none =>
    simp only [ht, Except.ok.injEq] at h
    exact .inl ⟨rfl, h.symm⟩
  | some t =>
    simp only [ht, bind_ok_iff, Except.ok.injEq] at h
    obtain ⟨_, hc, h⟩ := h
    exact .inr ⟨t, rfl, hc, h.symm⟩

/-- Byte stores of a machine-specific instruction keep the canonical form of memory. -/
theorem machineStores_wf (cfg : Params) (l : List (Word × Byte)) : ∀ m : Memory, m.wf → (machineStores cfg m l).wf := by
  induction l with
  | nil => exact fun _ h => h
  | cons c l ih =>
    intro m h
    simp only [machineStores]
    split
    · exact ih _ (write_wf _ _ _ h)
    · exact ih _ h

end Sys2Proof.Machine
end

