-- ==== Sys2Proof/Laws/Safety.lean ====
section
/-!
SUPPORT. The terms of Sys2Proof/Safety.lean for an instruction that is abandoned, in the terms of the operations.
-/

namespace Sys2Proof.Machine

/-- An abandoned instruction answers what its trap does. -/
theorem abandons_iff (i : Instr) (s : State) (t : Trap) : Abandons i s t ↔ exec i s = finish s (.error t) := by
  cases t <;> rfl

@[simp] theorem attempt_error_iff {α : Type} (r : Except Trap α) (t : Trap) : attempt r = .error t ↔ r = .error t := by
  cases r <;> simp [attempt, Except.map]

@[simp] theorem attempt_ok_iff {α : Type} (r : Except Trap α) : attempt r = .ok () ↔ ∃ v, r = .ok v := by
  cases r <;> simp [attempt, Except.map]

theorem raises_nil (t : Trap) : ¬ Raises [] t := by simp [Raises, firstTrap]

theorem raises_cons (c : Except Trap Unit) (cs : List (Except Trap Unit)) (t : Trap) :
    Raises (c :: cs) t ↔ c = .error t ∨ c = .ok () ∧ Raises cs t := by
  cases c <;> simp [Raises, firstTrap]

/-- A check before the others raises what it raises; after it has passed, the others decide. -/
theorem raises_bind {α β : Type} {x : Except Trap α} {f : α → Except Trap β} {cs : List (Except Trap Unit)} {t : Trap}
    (h : Raises (attempt x :: cs) t) (hf : ∀ a, x = .ok a → Raises cs t → f a = .error t) : (x >>= f) = .error t := by
  rcases (raises_cons _ _ _).1 h with h | ⟨h, hc⟩
  · rw [attempt_error_iff] at h
    rw [h, bind_error]
  · obtain ⟨a, ha⟩ := (attempt_ok_iff x).1 h
    rw [ha, bind_ok]
    exact hf a ha hc

end Sys2Proof.Machine
end

