-- ==== Sys2Proof/Tests/Slice0.lean ====
section
/-!
SUPPORT. Tests. Expected results are those of spec/95_test_vectors.md (the section is named in each heading), not the model's own.
Then one witness for each obligation with hypotheses: a concrete state and operands that meet them.
-/

-- One proof at a time: many at once need more threads than the memory limit of a check allows.
set_option Elab.async false

namespace Sys2Proof.Tests

open Sys2Proof Sys2Proof.Machine

/-! ### Helpers -/

/-- Does the step go on, to a state with this property? -/
def after (o : Host.Outcome State Fault Refusal) (p : State → Bool) : Bool :=
  match o with
  | .next t => p t
  | .fault _ | .refused _ => false

/-- Does the step stop with this fault? -/
def stopsWith (o : Host.Outcome State Fault Refusal) (f : Fault) : Bool :=
  match o with
  | .fault g => g == f
  | .next _ | .refused _ => false

/-- The physical addresses of `n` bytes from `a` on. -/
def span (a n : Nat) : List Nat := (List.range n).map (a + ·)

/-- Bytes in memory, and in what fetches and walks may see. -/
def put (a : Nat) (bs : List Byte) (s : State) : State :=
  let m := s.mem.writeBytes (span a bs.length) bs
  { s with mem := m, imem := m, wmem := m, brMem := m }

/-- An 8-byte value in memory. -/
def put8 (a v : Nat) (s : State) : State := put a (bytesLE 8 v) s

/-- A general register. -/
def gpr (r : BitVec 4) (v : Word) (s : State) : State := setGpr s r v

/-- The flags register. -/
def setFlags (f : Word) (s : State) : State := { s with flags := f }

/-- The machine after reset, about to execute these bytes at 0x1000. -/
def code (bs : List Byte) : State := put 0x1000 bs { State.reset with ip := 0x1000 }

/-- All bits set. -/
def m64 : Word := 0xffffffffffffffff

/-- In program mode. -/
def prog (s : State) : State := { s with mode := 0x300000000 }

/-- The 8-byte value at a physical address. -/
def at8 (s : State) (a : Nat) : Word := s.mem.readValue (span a 8)

/-- An interrupt table at 0x100 with this extent and the handlers of spec 2.15, and a stack at 0x8000. -/
def table (extent : Nat) (s : State) : State :=
  gpr 7 0x8000 { put8 0x100 extent (put8 0x120 0x8000 (put8 0x140 0x8010 (put8 0x160 0x8020 (put8 0x180 0x8030
    (put8 0x1a0 0x8040 (put8 0x1c0 0x8050 (put8 0x1e0 0x8060 (put8 0x320 0x8100 (put8 0x380 0x8130 (put8 0x520 0x8200 s)))))))))) with
    itabp := 0x100 }

/-- The page tables of spec 2.16, with this level-1 entry for 0x401000. -/
def paged (entry : Nat) (s : State) : State :=
  { put8 0x10000 0x11001 (put8 0x11010 0x12001 (put8 0x12008 entry s)) with cr0 := 1, page := 0x10000, brCr0 := 1, brPage := 0x10000 }

/-! ### Well-formedness: an ill-formed term for each check -/

theorem test_wf_ijmp_names_fret : WellFormed (.ijmp false 14) = false := by decide
theorem test_wf_ijmp_names_ifjmp : WellFormed (.ijmp true 15) = false := by decide
theorem test_wf_machine_specific_names_und : WellFormed (.machineSpecific 31 0) = false := by decide
theorem test_wf_repbi_hides_bcpy : WellFormed (.repbi .z (.invalid 0x02a0)) = false := by decide
theorem test_wf_repbc_hides_out : WellFormed (.repbc .z (.invalid 0x8073)) = false := by decide
theorem test_wf_repbc_bad_follower : WellFormed (.repbc .z (.invalid 0x0010)) = true := by decide

/-! ### Decoding: words written out from the encodings (2.1 to 2.14) -/

theorem test_decode_und_zeros :
    decode [0x00, 0x00] = .ok (.und000 0, []) := by decide +kernel
theorem test_decode_und_ones :
    decode [0xff, 0xff] = .ok (.undFff 15, []) := by decide +kernel
theorem test_decode_add :
    decode [0x00, 0x10, 0x03, 0x00, 0x80, 0x05] = .ok (.add false false (.reg .b64 0) (.short false 5), []) := by decide +kernel
theorem test_decode_add_locked :
    decode [0x00, 0x18, 0x40, 0x74, 0x80, 0x01] =
      .ok (.add true false (.ind (.num 0) 0 .b64 4) (.short false 1), []) := by decide +kernel
theorem test_decode_sub :
    decode [0x00, 0x20, 0x03, 0x01, 0x03, 0x02] = .ok (.sub false false (.reg .b64 1) (.reg .b64 2), []) := by decide +kernel
theorem test_decode_xor_memory :
    decode [0x00, 0x50, 0x55, 0xa4, 0x03, 0x00] =
      .ok (.xor false false (.ind (.gpr 5) 3 .b32 4) (.reg .b64 0), []) := by decide +kernel
theorem test_decode_mul :
    decode [0x00, 0x6d] = .ok (.mul .b64 true, []) := by decide +kernel
theorem test_decode_div_wide :
    decode [0x00, 0x7e] = .ok (.div .b64 true false, []) := by decide +kernel
theorem test_decode_idiv :
    decode [0x04, 0x80] = .ok (.idiv .b8 false false, []) := by decide +kernel
theorem test_decode_mov_immediate :
    decode [0x00, 0x80, 0x03, 0x00, 0xc1, 0x00, 0x78, 0x56, 0x34, 0x12] =
      .ok (.mov (.reg .b64 0) (.long false (.i32 0x12345678)), []) := by decide +kernel
theorem test_decode_mov_ip_relative :
    decode [0x00, 0x80, 0x03, 0x00, 0x9f, 0xfc] = .ok (.mov (.reg .b64 0) (.short true 0xffc), []) := by decide +kernel
theorem test_decode_lea :
    decode [0x00, 0xc6, 0xe4, 0x00, 0x10, 0x00] = .ok (.lear 6 (.mref true (.i16 0x10) .b8), []) := by decide +kernel
theorem test_decode_nop3 :
    decode [0x01, 0x30, 0x03, 0x00, 0x40, 0x74, 0xc2, 0x00, 0x88, 0x77, 0x66, 0x55, 0x44, 0x33, 0x22, 0x11] =
      .ok (.nop3 (.reg .b64 0) (.ind (.num 0) 0 .b64 4) (.long false (.i64 0x1122334455667788)), []) := by decide +kernel
theorem test_decode_popar :
    decode [0x01, 0xf0] = .ok (.popar, []) := by decide +kernel
theorem test_decode_movsx :
    decode [0x02, 0x01, 0x03, 0x00, 0x00, 0x01] = .ok (.movsx true (.reg .b64 0) (.reg .b8 1), []) := by decide +kernel
theorem test_decode_repbi :
    decode [0x02, 0x8c, 0x02, 0xd0] = .ok (.repbi .nz (.bcmp .b8), []) := by decide +kernel
theorem test_decode_repbc_bad :
    decode [0x02, 0x93, 0x00, 0x10] = .ok (.repbc .z (.invalid 0x0010), []) := by decide +kernel
theorem test_decode_rep_in :
    decode [0x02, 0x83, 0x80, 0x61] = .ok (.repbi .z (.inp .b16), []) := by decide +kernel
theorem test_decode_bcpy :
    decode [0x02, 0xa3] = .ok (.bcpy .b64, []) := by decide +kernel
theorem test_decode_rrot :
    decode [0x03, 0xe1, 0x00, 0x00] = .ok (.rrotr 1 (.reg .b8 0), []) := by decide +kernel
theorem test_decode_neg_locked :
    decode [0x04, 0x78, 0x40, 0x44] = .ok (.neg true false (.ind (.num 0) 0 .b8 4), []) := by decide +kernel
theorem test_decode_sub_gpr_source :
    decode [0x04, 0xa1, 0x00, 0x02] = .ok (.subrGprSrc 1 (.reg .b8 2), []) := by decide +kernel
theorem test_decode_cmp :
    decode [0x06, 0xc0, 0x03, 0x00, 0x80, 0x05] = .ok (.cmp (.reg .b64 0) (.short false 5), []) := by decide +kernel
theorem test_decode_cmpxchg :
    decode [0x20, 0x10, 0x40, 0x74, 0x03, 0x00, 0x80, 0x2a] =
      .ok (.cmpxchg (.ind (.num 0) 0 .b64 4) (.reg .b64 0) (.short false 42), []) := by decide +kernel
theorem test_decode_jlt :
    decode [0x75, 0x47, 0x00, 0x01, 0x00, 0x00] = .ok (.jlt32 true 7 0x100, []) := by decide +kernel
theorem test_decode_jgt :
    decode [0x79, 0xa8, 0xf6, 0xff, 0xff, 0xff, 0xff, 0xff, 0xff, 0xff] =
      .ok (.jgt64 true 8 0xfffffffffffffff6, []) := by decide +kernel
theorem test_decode_jmp :
    decode [0x7c, 0x02, 0x00, 0x20, 0x00, 0x00, 0x00, 0x00, 0x00, 0x00] = .ok (.jmp false (.i64 0x2000), []) := by decide +kernel
theorem test_decode_ijmp :
    decode [0x7d, 0x82] = .ok (.ijmp true 2, []) := by decide +kernel
theorem test_decode_fret :
    decode [0x7c, 0x8e] = .ok (.fret false, []) := by decide +kernel
theorem test_decode_callsm :
    decode [0x7c, 0xc8, 0x00, 0x40] = .ok (.callsm false true (.i16 0x4000), []) := by decide +kernel
theorem test_decode_scret :
    decode [0xfc, 0x60] = .ok (.scret, []) := by decide +kernel
theorem test_decode_machine :
    decode [0xfe, 0x00] = .ok (.machineSpecific 0 0, []) := by decide +kernel
theorem test_decode_in :
    decode [0x80, 0x61] = .ok (.inp .b16, []) := by decide +kernel
theorem test_decode_storegf :
    decode [0x80, 0x80, 0xe1, 0x00, 0x00, 0x00, 0x01, 0x00] = .ok (.storegf (.mref false (.i32 0x10000) .b8), []) := by decide +kernel
theorem test_refuse_reserved_h : decode [0x00, 0x12, 0x03, 0x00, 0x80, 0x01] = .error .reservedH := by decide +kernel
theorem test_refuse_mul_with_w : decode [0x00, 0x6e] = .error .reservedH := by decide +kernel
theorem test_refuse_unassigned_block : decode [0x02, 0xf0] = .error .unassignedOpcode := by decide +kernel
theorem test_refuse_unassigned_shift : decode [0x03, 0x70] = .error .unassignedOpcode := by decide +kernel
theorem test_refuse_register_bit_10 : decode [0x01, 0x10, 0x07, 0x00] = .error .malformedOperand := by decide +kernel
theorem test_refuse_short_bit_13 : decode [0x01, 0x10, 0xa0, 0x00] = .error .malformedOperand := by decide +kernel
theorem test_refuse_immediate_of_16_bytes : decode [0x01, 0x10, 0xc3, 0x00] = .error .reservedImmediate := by decide +kernel
theorem test_refuse_jcc_bit_9 : decode [0x72, 0x30, 0x00, 0x20] = .error .unassignedOpcode := by decide +kernel
theorem test_refuse_jmp_of_16_bytes : decode [0x7c, 0x03] = .error .reservedImmediate := by decide +kernel
theorem test_refuse_cut_off : decode [0x00, 0x10, 0x03] = .error .truncated := by decide +kernel

/-! ### One step each: arithmetic (2.2, 2.3) -/

theorem test_add_carries :
    after (step (gpr 0 m64 (code [0x00, 0x10, 0x03, 0x00, 0x80, 0x01])))
      (fun t => getGpr t 0 == 0 && t.flags == 3 && t.ip == 0x1006) = true := by
  decide +kernel
theorem test_add_byte_overflows :
    after (step (gpr 0 0x7f (code [0x00, 0x10, 0x00, 0x00, 0x80, 0x01])))
      (fun t => getGpr t 0 == 0x80 && t.flags == 0xc) = true := by
  decide +kernel
theorem test_sub_borrows :
    after (step (gpr 0 0 (code [0x00, 0x20, 0x03, 0x00, 0x80, 0x01])))
      (fun t => getGpr t 0 == m64 && t.flags == 9) = true := by
  decide +kernel
theorem test_sub_byte_overflows :
    after (step (gpr 0 0x80 (code [0x00, 0x20, 0x00, 0x00, 0x80, 0x01])))
      (fun t => getGpr t 0 == 0x7f && t.flags == 4) = true := by
  decide +kernel
theorem test_and_clears_carry :
    after (step (setFlags 5 (gpr 0 m64 (code [0x00, 0x30, 0x03, 0x00, 0x8f, 0xff]))))
      (fun t => getGpr t 0 == 0xfff && t.flags == 0) = true := by
  decide +kernel
theorem test_or_byte :
    after (step (gpr 3 0x1234 (code [0x00, 0x40, 0x00, 0x03, 0x80, 0x80])))
      (fun t => getGpr t 3 == 0xb4 && t.flags == 8) = true := by
  decide +kernel
theorem test_xor_itself :
    after (step (setFlags 0xd (gpr 0 0x55 (code [0x00, 0x50, 0x03, 0x00, 0x03, 0x00]))))
      (fun t => getGpr t 0 == 0 && t.flags == 2) = true := by
  decide +kernel
theorem test_add_to_memory :
    after (step (gpr 4 0x5000 (put8 0x5000 0xffffffffffffffff (code [0x00, 0x18, 0x40, 0x74, 0x80, 0x01]))))
      (fun t => at8 t 0x5000 == 0 && t.flags == 3) = true := by
  decide +kernel
theorem test_cpuinfo_destination_und :
    after (step (prog (table 2048 (code [0x00, 0x10, 0x03, 0x88, 0x80, 0x01]))))
      (fun t => t.ip == 0x8010) = true := by
  decide +kernel
theorem test_add_wide_source : after (step (gpr 0 1 (code [0x00, 0x10, 0x00, 0x00, 0x8f, 0xff]))) (fun t => getGpr t 0 == 0) = true := by
  decide +kernel
theorem test_mul_byte :
    after (step (gpr 3 0x102 (gpr 0 0x1ff (code [0x00, 0x60]))))
      (fun t => getGpr t 0 == 0xfe && getGpr t 3 == 1) = true := by
  decide +kernel
theorem test_mul_quiet :
    after (step (setFlags 0x1f (gpr 3 7 (gpr 0 6 (code [0x00, 0x6d])))))
      (fun t => getGpr t 0 == 0x2a && getGpr t 3 == 0 && t.flags == 0x1f) = true := by
  decide +kernel
theorem test_div_wide :
    after (step (gpr 3 2 (gpr 1 1 (gpr 0 0 (code [0x00, 0x7e])))))
      (fun t => getGpr t 0 == 0x8000000000000000 && getGpr t 3 == 0 && getGpr t 1 == 1) = true := by
  decide +kernel
theorem test_div_truncates :
    after (step (gpr 3 2 (gpr 1 2 (gpr 0 5 (code [0x00, 0x7e])))))
      (fun t => getGpr t 0 == 2 && getGpr t 3 == 1) = true := by
  decide +kernel
theorem test_imul_byte :
    after (step (gpr 3 0x80 (gpr 0 0x80 (code [0x04, 0x00]))))
      (fun t => getGpr t 0 == 0 && getGpr t 3 == 0x40) = true := by
  decide +kernel
theorem test_idiv_signs :
    after (step (gpr 3 2 (gpr 0 (-7) (code [0x04, 0x8c]))))
      (fun t => getGpr t 0 == -3 && getGpr t 3 == m64) = true := by
  decide +kernel
theorem test_idiv_wide_byte :
    after (step (gpr 3 2 (gpr 1 0xff (gpr 0 0 (code [0x04, 0x82])))))
      (fun t => getGpr t 0 == 0x80 && getGpr t 3 == 0 && getGpr t 1 == 0xff) = true := by
  decide +kernel

/-! ### Moves, stack, bulk storage (2.4 to 2.8) -/

theorem test_mov_next_ip : after (step (code [0x00, 0x80, 0x03, 0x00, 0x03, 0x10])) (fun t => getGpr t 0 == 0x1006) = true := by
  decide +kernel
theorem test_mov_indexed :
    after (step (gpr 5 2 (gpr 4 0x5000 (put 0x5010 [0xef, 0xbe, 0xad, 0xde] (code [0x00, 0x80, 0x02, 0x00, 0x55, 0xa4])))))
      (fun t => getGpr t 0 == 0xdeadbeef && t.flags == 8) = true := by
  decide +kernel
theorem test_lea_wraps :
    after (step (gpr 5 m64 (gpr 2 0x1000 (code [0x00, 0x90, 0x03, 0x01, 0x54, 0x82]))))
      (fun t => getGpr t 1 == 0xffe && t.flags == 0) = true := by
  decide +kernel
theorem test_lea_truncates : after (step (gpr 2 0x10f0 (code [0x00, 0x90, 0x00, 0x01, 0x4d, 0xc2]))) (fun t => getGpr t 1 == 8) = true := by
  decide +kernel
theorem test_movr_loads :
    after (step (gpr 3 m64 (put 0x2000 [0x78, 0x56, 0x34, 0x12] (code [0x00, 0xa3, 0xe0, 0x20, 0x00, 0x20]))))
      (fun t => getGpr t 3 == 0x12345678) = true := by
  decide +kernel
theorem test_movr_stores :
    after (step (gpr 5 0x3000 (gpr 0 0x1ff (code [0x00, 0xb0, 0x40, 0x45]))))
      (fun t => at8 t 0x3000 == 0xff && t.flags == 8) = true := by
  decide +kernel
theorem test_lear_ip_relative : after (step (code [0x00, 0xc6, 0xe4, 0x00, 0x10, 0x00])) (fun t => getGpr t 6 == 0x1016) = true := by
  decide +kernel
theorem test_nop_reserved_register : after (step (prog (code [0x01, 0x10, 0x03, 0xff]))) (fun t => t.ip == 0x1004 && t.xm) = true := by
  decide +kernel
theorem test_push_old_sp :
    after (step (gpr 7 0x8000 (code [0x01, 0x40, 0x03, 0x07])))
      (fun t => at8 t 0x7ff8 == 0x8000 && getGpr t 7 == 0x7ff8) = true := by
  decide +kernel
theorem test_pop_memory :
    after (step (gpr 7 0x7ff8 (put8 0x7ff8 0x8877665544332211 (code [0x01, 0x50, 0x40, 0x77]))))
      (fun t => at8 t 0x7ff8 == 0x8877665544332211 && getGpr t 7 == 0x8000) = true := by
  decide +kernel
theorem test_pop_flags_protected :
    after (step (prog ((fun s => { s with flprotect := 1 }) (gpr 7 0x7ff8 (put8 0x7ff8 0xffffffffffffffff (code [0x01, 0x50, 0x03,
      0x11]))))))
      (fun t => t.flags == 0x1e && getGpr t 7 == 0x8000) = true := by
  decide +kernel
theorem test_pushr :
    after (step (gpr 7 0x8000 (gpr 6 0xaabb (code [0x01, 0x66]))))
      (fun t => at8 t 0x7ff8 == 0xaabb && getGpr t 7 == 0x7ff8) = true := by
  decide +kernel
theorem test_popr_sp : after (step (gpr 7 0x7ff8 (put8 0x7ff8 0x9000 (code [0x01, 0x77])))) (fun t => getGpr t 7 == 0x9000) = true := by
  decide +kernel
theorem test_pushgpr :
    after (step (gpr 15 0xf5 (gpr 7 0x9000 (gpr 0 0x10 (code [0x01, 0xc0])))))
      (fun t => at8 t 0x8f80 == 0x10 && at8 t 0x8fb8 == 0x9000 && at8 t 0x8ff8 == 0xf5 && getGpr t 7 == 0x8f80) = true := by
  decide +kernel
theorem test_stoar :
    after (step (setFlags 0xa (prog (code [0x01, 0x90, 0xe0, 0x00, 0x00, 0x60]))))
      (fun t => at8 t 0x6080 == 0x1006 && at8 t 0x6088 == 0xa && at8 t 0x6090 == 0x300000000 && at8 t 0x6098 == 0) = true := by
  decide +kernel
theorem test_rstoar_reserved_slot :
    after (step (table 2048 (put8 0x6098 1 (code [0x01, 0xb0, 0xe0, 0x00, 0x00, 0x60]))))
      (fun t => t.ip == 0x8020 && t.fcode == 0) = true := by
  decide +kernel
theorem test_popgpr :
    after (step (gpr 7 0x8f80 (put8 0x8ff8 0xf5 (put8 0x8fb8 0x9000 (code [0x01, 0xe0])))))
      (fun t => getGpr t 7 == 0x9000 && getGpr t 15 == 0xf5) = true := by
  decide +kernel
theorem test_movsx_negative :
    after (step (gpr 1 0x80 (code [0x02, 0x00, 0x03, 0x00, 0x00, 0x01])))
      (fun t => getGpr t 0 == 0xffffffffffffff80 && t.flags == 8) = true := by
  decide +kernel
theorem test_movsx_short :
    after (step (gpr 2 m64 (code [0x02, 0x00, 0x02, 0x02, 0x8f, 0xff])))
      (fun t => getGpr t 2 == 0xffffffff && t.flags == 8) = true := by
  decide +kernel
theorem test_bswap :
    after (step (gpr 1 0x11223344 (code [0x02, 0x10, 0x02, 0x00, 0x02, 0x01])))
      (fun t => getGpr t 0 == 0x44332211 && t.flags == 0) = true := by
  decide +kernel

/-! ### Block operations and prefixes (2.9) -/

theorem test_bcpy :
    after (step (gpr 5 0x2000 (gpr 4 0x1100 (put8 0x1100 0x1122334455667788 (code [0x02, 0xa3])))))
      (fun t => at8 t 0x2000 == 0x1122334455667788 && getGpr t 4 == 0x1108 && getGpr t 5 == 0x2008) = true := by
  decide +kernel
theorem test_bsto :
    after (step (gpr 5 0x3000 (gpr 0 0xdeadbeef (code [0x02, 0xb2]))))
      (fun t => at8 t 0x3000 == 0xdeadbeef && getGpr t 5 == 0x3004 && t.flags == 8) = true := by
  decide +kernel
theorem test_bsca_keeps_r4 :
    after (step (gpr 4 0x1100 (gpr 0 m64 (put8 0x1100 0x1234 (code [0x02, 0xc1])))))
      (fun t => getGpr t 0 == 0x1234 && getGpr t 4 == 0x1100) = true := by
  decide +kernel
theorem test_bcmp :
    after (step (gpr 5 0x2000 (gpr 4 0x1100 (put 0x2000 [0x20] (put 0x1100 [0x10] (code [0x02, 0xd0]))))))
      (fun t => getGpr t 4 == 0x1101 && getGpr t 5 == 0x2001 && t.flags == 9) = true := by
  decide +kernel
theorem test_btst :
    after (step (gpr 4 0x1100 (gpr 0 0x141 (put 0x1100 [0x41] (code [0x02, 0xe0])))))
      (fun t => getGpr t 4 == 0x1101 && t.flags == 2) = true := by
  decide +kernel
theorem test_repbc_goes_on :
    after (step (gpr 5 0x5000 (gpr 1 4 (gpr 0 0x41 (code [0x02, 0x93, 0x02, 0xb0])))))
      (fun t => at8 t 0x5000 == 0x41 && getGpr t 1 == 3 && getGpr t 5 == 0x5001 && t.ip == 0x1000) = true := by
  decide +kernel
theorem test_repbc_stops_on_condition :
    after (step (gpr 5 0x5000 (gpr 1 4 (code [0x02, 0x93, 0x02, 0xb0]))))
      (fun t => getGpr t 1 == 3 && t.flags == 2 && t.ip == 0x1004) = true := by
  decide +kernel
theorem test_repbi_leaves_r1 :
    after (step (gpr 1 99 (gpr 5 0x2000 (gpr 4 0x1100 (put 0x2000 [0x78] (put 0x1100 [0x63] (code [0x02, 0x8c, 0x02, 0xd0])))))))
      (fun t => getGpr t 1 == 99 && t.flags == 9 && t.ip == 0x1004) = true := by
  decide +kernel
theorem test_repbc_bad_follower :
    after (step (table 2048 (code [0x02, 0x93, 0x00, 0x10])))
      (fun t => t.ip == 0x8010 && at8 t 0x7fe0 == 0x1000) = true := by
  decide +kernel

/-! ### Shifts (2.10); V is a free value, so only the result is compared, and the bit moved out on its own -/

theorem test_lsh_not_reduced :
    after (step (gpr 1 0x100000000 (gpr 0 1 (code [0x03, 0x00, 0x03, 0x00, 0x03, 0x01]))))
      (fun t => getGpr t 0 == 0) = true := by
  decide +kernel
theorem test_rsh_byte : after (step (gpr 0 0x81 (code [0x03, 0x10, 0x00, 0x00, 0x80, 0x01]))) (fun t => getGpr t 0 == 0x40) = true := by
  decide +kernel
theorem test_arsh_byte : after (step (gpr 0 0x86 (code [0x03, 0x20, 0x00, 0x00, 0x80, 0x02]))) (fun t => getGpr t 0 == 0xe1) = true := by
  decide +kernel
theorem test_lshc_three :
    after (step (setFlags 1 (gpr 0 1 (code [0x03, 0x30, 0x00, 0x00, 0x80, 0x03]))))
      (fun t => getGpr t 0 == 0xf) = true := by
  decide +kernel
theorem test_rshc_four :
    after (step (setFlags 1 (gpr 0 0xf (code [0x03, 0x40, 0x00, 0x00, 0x80, 0x04]))))
      (fun t => getGpr t 0 == 0xf0) = true := by
  decide +kernel
theorem test_lrot_twelve : after (step (gpr 0 0x81 (code [0x03, 0x50, 0x00, 0x00, 0x80, 0x0c]))) (fun t => getGpr t 0 == 0x18) = true := by
  decide +kernel
theorem test_rrot_word :
    after (step (gpr 0 0x12345678 (code [0x03, 0x60, 0x02, 0x00, 0x80, 0x04])))
      (fun t => getGpr t 0 == 0x81234567) = true := by
  decide +kernel
theorem test_lsh_quiet :
    after (step (setFlags 0x1e (gpr 0 0x1000000000000001 (code [0x03, 0x01, 0x03, 0x00, 0x80, 0x04]))))
      (fun t => getGpr t 0 == 0x10 && t.flags == 0x1e) = true := by
  decide +kernel
theorem test_lshr :
    after (step (gpr 2 0x4000000000000000 (code [0x03, 0x82, 0x80, 0x01])))
      (fun t => getGpr t 2 == 0x8000000000000000) = true := by
  decide +kernel
theorem test_rrotr_byte :
    after (step (gpr 1 0xaabb01 (gpr 0 0x101 (code [0x03, 0xe1, 0x00, 0x00]))))
      (fun t => getGpr t 1 == 0x80) = true := by
  decide +kernel
theorem test_lsh_last_bit_out : ShiftOp.lsh.apply 64 1 64 false = ⟨0, true⟩ := by decide
theorem test_arsh_beyond_width : ShiftOp.arsh.apply 8 0x80 8 false = ⟨0xff, true⟩ := by decide
theorem test_lshc_beyond_width : ShiftOp.lshc.apply 8 0x55 9 true = ⟨0xff, true⟩ := by decide
theorem test_rshc_clear_carry : ShiftOp.rshc.apply 8 0xf 4 false = ⟨0, true⟩ := by decide
theorem test_lrot_whole : ShiftOp.lrot.apply 8 0x81 8 false = ⟨0x81, true⟩ := by decide
theorem test_rrot_one : ShiftOp.rrot.apply 8 1 1 false = ⟨0x80, true⟩ := by decide

/-! ### Unary operations, gpr forms, comparisons (2.11), atomics (2.12) -/

theorem test_bnot_byte :
    after (step (gpr 0 0x1fe (code [0x04, 0x60, 0x00, 0x00])))
      (fun t => getGpr t 0 == 1 && t.flags == 0x10) = true := by
  decide +kernel
theorem test_neg_byte_keeps_cv :
    after (step (setFlags 5 (gpr 0 0x80 (code [0x04, 0x70, 0x00, 0x00]))))
      (fun t => getGpr t 0 == 0x80 && t.flags == 0x1d) = true := by
  decide +kernel
theorem test_bnotr : after (step (gpr 5 0xff (code [0x04, 0xe5]))) (fun t => getGpr t 5 == 0xffffffffffffff00 && t.flags == 8) = true := by
  decide +kernel
theorem test_negr : after (step (gpr 5 5 (code [0x04, 0xf5]))) (fun t => getGpr t 5 == 0xfffffffffffffffb && t.flags == 0x18) = true := by
  decide +kernel
theorem test_addr_gpr_destination :
    after (step (gpr 0 m64 (code [0x04, 0x10, 0x80, 0x01])))
      (fun t => getGpr t 0 == 0 && t.flags == 3) = true := by
  decide +kernel
theorem test_subr_gpr_destination :
    after (step (gpr 4 0x2200000007 (gpr 3 0x1100000005 (code [0x04, 0x23, 0x02, 0x04]))))
      (fun t => getGpr t 3 == 0xfffffffe && t.flags == 9) = true := by
  decide +kernel
theorem test_andr_gpr_destination :
    after (step (gpr 2 0xff0 (gpr 1 0xffff (code [0x04, 0x31, 0x00, 0x02]))))
      (fun t => getGpr t 1 == 0xf0 && t.flags == 8) = true := by
  decide +kernel
theorem test_orr_gpr_destination :
    after (step (gpr 2 1 (code [0x04, 0x42, 0xc0, 0x00, 0x00, 0x80])))
      (fun t => getGpr t 2 == 0x8001 && t.flags == 0) = true := by
  decide +kernel
theorem test_xorr_gpr_destination :
    after (step (gpr 0 0x1234 (code [0x04, 0x50, 0x03, 0x00])))
      (fun t => getGpr t 0 == 0 && t.flags == 2) = true := by
  decide +kernel
theorem test_addr_gpr_source :
    after (step (gpr 4 0x5000 (gpr 1 5 (put8 0x5000 10 (code [0x04, 0x91, 0x40, 0x74])))))
      (fun t => at8 t 0x5000 == 15 && t.flags == 0) = true := by
  decide +kernel
theorem test_subr_gpr_source :
    after (step (gpr 2 0x10 (gpr 1 0x1ff (code [0x04, 0xa1, 0x00, 0x02]))))
      (fun t => getGpr t 2 == 0x11 && t.flags == 1) = true := by
  decide +kernel
theorem test_cmp_signed_overflow :
    after (step (gpr 1 1 (gpr 0 0x8000000000000000 (code [0x06, 0xc0, 0x03, 0x00, 0x03, 0x01]))))
      (fun t => t.flags == 4 && getGpr t 0 == 0x8000000000000000) = true := by
  decide +kernel
theorem test_cmp_twelve_bits : after (step (gpr 0 0x105 (code [0x06, 0xc0, 0x00, 0x00, 0x80, 0x05]))) (fun t => t.flags == 2) = true := by
  decide +kernel
theorem test_test_keeps_cvp :
    after (step (setFlags 0x15 (gpr 0 6 (code [0x06, 0xd0, 0x03, 0x00, 0x80, 0x01]))))
      (fun t => t.flags == 0x17) = true := by
  decide +kernel
theorem test_cmpr_byte : after (step (gpr 2 1 (gpr 1 0x100 (code [0x06, 0xe1, 0x00, 0x02])))) (fun t => t.flags == 9) = true := by
  decide +kernel
theorem test_testr : after (step (gpr 2 0xff (code [0x06, 0xf2, 0x8f, 0x00]))) (fun t => t.flags == 2) = true := by
  decide +kernel
theorem test_xchg_sizes :
    after (step (gpr 1 0x33ff (gpr 0 0x1122 (code [0x20, 0x00, 0x03, 0x00, 0x00, 0x01]))))
      (fun t => getGpr t 0 == 0xff && getGpr t 1 == 0x22) = true := by
  decide +kernel
theorem test_cmpxchg_equal :
    after (step (setFlags 0x1d (gpr 4 0x5000 (gpr 1 9 (gpr 0 7 (put8 0x5000 7 (code [0x20, 0x10, 0x40, 0x74, 0x03, 0x00, 0x03,
      0x01])))))))
      (fun t => at8 t 0x5000 == 9 && getGpr t 0 == 7 && t.flags == 0x1f) = true := by
  decide +kernel
theorem test_cmpxchg_differs :
    after (step (setFlags 0x1f (gpr 4 0x5000 (gpr 1 9 (gpr 0 7 (put8 0x5000 8 (code [0x20, 0x10, 0x40, 0x74, 0x03, 0x00, 0x03,
      0x01])))))))
      (fun t => at8 t 0x5000 == 8 && getGpr t 0 == 8 && t.flags == 0x1d) = true := by
  decide +kernel
theorem test_wcmpxchg_differs :
    after (step (gpr 4 0x5000 (gpr 1 9 (gpr 0 7 (put8 0x5000 8 (code [0x20, 0x20, 0x40, 0x74, 0x03, 0x00, 0x03, 0x01]))))))
      (fun t => at8 t 0x5000 == 8 && getGpr t 0 == 8 && t.flags == 0) = true := by
  decide +kernel
theorem test_fence : after (step (setFlags 0x1f (code [0x20, 0x30]))) (fun t => t.ip == 0x1002 && t.flags == 0x1f) = true := by
  decide +kernel

/-! ### Branches (2.13) and supervisor calls (2.14) -/

theorem test_jz_to_itself : after (step (setFlags 2 (code [0x71, 0x30, 0xfc, 0xff]))) (fun t => t.ip == 0x1000) = true := by
  decide +kernel
theorem test_jnz_not_taken_unchecked : after (step (setFlags 2 (code [0x70, 0xc0, 0x01, 0x20]))) (fun t => t.ip == 0x1004) = true := by
  decide +kernel
theorem test_jnz_odd_target :
    after (step (table 2048 (code [0x70, 0xc0, 0x01, 0x20])))
      (fun t => t.ip == 0x8040 && t.fcode == 0x2001 && at8 t 0x7fe0 == 0x1000) = true := by
  decide +kernel
theorem test_jlt_relative : after (step (setFlags 8 (code [0x75, 0x47, 0x00, 0x01, 0x00, 0x00]))) (fun t => t.ip == 0x1106) = true := by
  decide +kernel
theorem test_jgt_backwards :
    after (step (code [0x79, 0xa8, 0xf6, 0xff, 0xff, 0xff, 0xff, 0xff, 0xff, 0xff]))
      (fun t => t.ip == 0x1000) = true := by
  decide +kernel
theorem test_jmp_relative : after (step (code [0x7d, 0x00, 0x10, 0x00])) (fun t => t.ip == 0x1014) = true := by
  decide +kernel
theorem test_call :
    after (step (gpr 7 0x8000 (code [0x7c, 0x10, 0x00, 0x30])))
      (fun t => at8 t 0x7ff8 == 0x1004 && getGpr t 7 == 0x7ff8 && t.ip == 0x3000) = true := by
  decide +kernel
theorem test_fcall :
    after (step (gpr 7 0x8000 (code [0x7c, 0x20, 0x00, 0x30])))
      (fun t => getGpr t 14 == 0x1004 && getGpr t 7 == 0x8000 && t.ip == 0x3000) = true := by
  decide +kernel
theorem test_ret :
    after (step (gpr 7 0x7ff8 (put8 0x7ff8 0x1004 (code [0x7c, 0x30]))))
      (fun t => t.ip == 0x1004 && getGpr t 7 == 0x8000) = true := by
  decide +kernel
theorem test_ijmp_relative : after (step (gpr 2 0x20 (code [0x7d, 0x82]))) (fun t => t.ip == 0x1022) = true := by
  decide +kernel
theorem test_fret : after (step (gpr 14 0x1234 (code [0x7c, 0x8e]))) (fun t => t.ip == 0x1234) = true := by
  decide +kernel
theorem test_icall :
    after (step (gpr 7 0x8000 (gpr 2 0x3000 (code [0x7c, 0x92]))))
      (fun t => at8 t 0x7ff8 == 0x1002 && t.ip == 0x3000) = true := by
  decide +kernel
theorem test_ifcall : after (step (gpr 15 0x3000 (code [0x7c, 0xa0]))) (fun t => getGpr t 14 == 0x1002 && t.ip == 0x3000) = true := by
  decide +kernel
theorem test_jsm_enters_program_mode :
    after (step (gpr 0 0x300000000 (code [0x7c, 0xb0, 0x00, 0x40])))
      (fun t => t.mode == 0x300000000 && t.ip == 0x4000) = true := by
  decide +kernel
theorem test_jsm_keeps_upper_half :
    after (step ((fun s => { s with mode := 0x300000005 }) (code [0x7c, 0xb0, 0x00, 0x40])))
      (fun t => t.mode == 0x300000000 && t.ip == 0x4000) = true := by
  decide +kernel
theorem test_callsm_pushes_mode :
    after (step (put8 0x7ff8 1 (gpr 7 0x8000 (gpr 0 0x300000000 (code [0x7c, 0xc8, 0x00, 0x40])))))
      (fun t => at8 t 0x7ff8 == 0 && at8 t 0x7ff0 == 0x1004 && getGpr t 7 == 0x7ff0 && t.mode == 0x300000000) = true := by
  decide +kernel
theorem test_retrsm_program_mode :
    after (step (prog (gpr 7 0x7ff0 (put8 0x7ff0 0x1004 (code [0x7c, 0xd0])))))
      (fun t => t.ip == 0x1004 && getGpr t 7 == 0x8000 && t.mode == 0x300000000) = true := by
  decide +kernel
theorem test_scall_fast :
    after (step ((fun s => { s with scdp := 0x6000, scsp := 0xa000, sccr := 2, flags := 2 }) (prog (gpr 7 0x9000 (code [0x7c,
      0x40])))))
      (fun t => getGpr t 12 == 0x9000 && getGpr t 7 == 0xa000 && getGpr t 13 == 0x300000000 && t.mode == 0 && getGpr t 14 == 0x1002
        && t.ip == 0x6000) = true := by
  decide +kernel
theorem test_scall_stack :
    after (step ((fun s => { s with scdp := 0x6000, scsp := 0xa000, flags := 2 }) (prog (gpr 7 0x9000 (code [0x7c, 0x40])))))
      (fun t => at8 t 0x9fe0 == 0x1002 && at8 t 0x9fe8 == 0x300000000 && at8 t 0x9ff0 == 2 && at8 t 0x9ff8 == 0x9000 && getGpr t 7
        == 0x9fe0 && t.mode == 0 && t.ip == 0x6000) = true := by
  decide +kernel
theorem test_scall_push_fault_mode :
    after (step ((fun s => { s with scdp := 0x6000, scsp := 0x100000010, pfcharp := 0x7000 }) (prog (table 2048 (code [0x7c,
      0x40])))))
      (fun t => at8 t 0x7008 == 0x06030100 && t.ip == 0x8030) = true := by
  decide +kernel
theorem test_scret_stack :
    after (step (gpr 7 0x9fe0 (put8 0x9ff8 0x9000 (put8 0x9ff0 2 (put8 0x9fe8 0x300000000 (put8 0x9fe0 0x4002 (code [0xfc,
      0x60])))))))
      (fun t => t.ip == 0x4002 && t.mode == 0x300000000 && t.flags == 2 && getGpr t 7 == 0x9000) = true := by
  decide +kernel
theorem test_reti :
    after (step (gpr 7 0x9fe0 (put8 0x9ff8 0x9000 (put8 0x9ff0 2 (put8 0x9fe8 0x300000000 (put8 0x9fe0 0x4002 (code [0xfc,
      0x70])))))))
      (fun t => t.ip == 0x4002 && t.mode == 0x300000000 && t.flags == 2 && getGpr t 7 == 0x9000) = true := by
  decide +kernel
theorem test_halt : after (step (code [0x80, 0x10])) (fun t => t.halted && t.ip == 0x1002) = true := by
  decide +kernel
theorem test_halt_program_mode :
    after (step (table 2048 (prog (code [0x80, 0x10]))))
      (fun t => t.ip == 0x8020 && t.fcode == 0 && !t.halted) = true := by
  decide +kernel
theorem test_pcfl_flags_page_fault :
    after (step ((fun s => { s with page := 0x6001 }) (table 2048 (code [0x80, 0x20]))))
      (fun t => t.ip == 0x8030) = true := by
  decide +kernel
theorem test_pcfl_takes_ptl : after (step ((fun s => { s with cr0 := 0x18 }) (code [0x80, 0x20]))) (fun t => t.wptl == 3) = true := by
  decide +kernel
theorem test_flall :
    after (step ((fun s => { s with wmem := [] }) (code [0x80, 0x30])))
      (fun t => t.wmem == t.mem && t.ip == 0x1002) = true := by
  decide +kernel
theorem test_dflush : after (step (gpr 4 0x5000 (code [0x80, 0x40, 0x40, 0x44]))) (fun t => t.ip == 0x1004) = true := by
  decide +kernel
theorem test_iflush :
    after (step ((fun s => { s with mem := s.mem.write 0x3000 0x55 }) (code [0x80, 0x50, 0xe0, 0x00, 0x00, 0x30])))
      (fun t => t.imem.read 0x3000 == 0x55 && t.ip == 0x1006) = true := by
  decide +kernel
theorem test_in_cpu_count : after (step (gpr 2 0xfe80 (code [0x80, 0x61]))) (fun t => getGpr t 0 == 1 && t.flags == 0x10) = true := by
  decide +kernel
theorem test_out_absent_device :
    after (step (gpr 0 7 (gpr 2 0x12345 (code [0x80, 0x73]))))
      (fun t => t.ip == 0x1002 && t.rlp == State.reset.rlp) = true := by
  decide +kernel
theorem test_storegf_next_ip :
    after (step (gpr 15 0xf5 (code [0x80, 0x80, 0xe1, 0x00, 0x00, 0x00, 0x01, 0x00])))
      (fun t => at8 t 0x10080 == 0x1008 && at8 t 0x10078 == 0xf5 && at8 t 0x10098 == 0) = true := by
  decide +kernel
theorem test_rstregf_continues :
    after (step (put8 0x10090 0x300000000 (put8 0x10078 0xf5 (put8 0x10080 0x2000 (code [0x80, 0x90, 0xe1, 0x00, 0x00, 0x00, 0x01,
      0x00])))))
      (fun t => t.ip == 0x2000 && getGpr t 15 == 0xf5 && t.mode == 0x300000000) = true := by
  decide +kernel

/-! ### Delivery and paging (2.15, 2.16) -/

theorem test_und_delivery :
    after (step (setFlags 0xa (prog (table 2048 (code [0x00, 0x00])))))
      (fun t => at8 t 0x7fe0 == 0x1000 && at8 t 0x7fe8 == 0x300000000 && at8 t 0x7ff0 == 0xa && at8 t 0x7ff8 == 0x8000 && getGpr t 7
        == 0x7fe0 && t.mode == 0 && t.ip == 0x8010) = true := by
  decide +kernel
theorem test_int_delivery :
    after (step ((fun s => { s with cr0 := 2, flags := 1 }) (prog (table 2048 (code [0x7c, 0x53])))))
      (fun t => at8 t 0x7fe0 == 0x1002 && t.mode == 0 && t.ip == 0x8130) = true := by
  decide +kernel
theorem test_div_by_zero : after (step (gpr 0 1 (table 2048 (code [0x00, 0x7c])))) (fun t => getGpr t 0 == 1 && t.ip == 0x8060) = true := by
  decide +kernel
theorem test_out_of_bounds_aborts :
    after (step (prog (table 64 (code [0x00, 0x80, 0x03, 0x00, 0x03, 0x80]))))
      (fun t => t.ip == 0x8000 && t.fcode == 0) = true := by
  decide +kernel
theorem test_misaligned_table_resets :
    after (step ((fun s => { s with itabp := 0x108 }) (code [0x00, 0x00])))
      (fun t => t.ip == 0xff00 && t.cr0 == 0) = true := by
  decide +kernel
theorem test_machine_specific_und : after (step (prog (table 2048 (code [0xfe, 0x00])))) (fun t => t.ip == 0x8010) = true := by
  decide +kernel
theorem test_machine_specific_prot :
    after (step ((fun s => { s with cfg := { s.cfg with machInstr := [⟨0, 0⟩] } }) (prog (table 2048 (code [0xfe, 0x00])))))
      (fun t => t.ip == 0x8020) = true := by
  decide +kernel
theorem test_page_flag_resets :
    after (step ((fun s => { s with page := 0x10001 }) (paged 0x2000e (table 2048 (code [0x01, 0x00])))))
      (fun t => t.ip == 0xff00 && t.cr0 == 0) = true := by
  decide +kernel
theorem test_load_beyond_physical :
    after (step (table 2048 (code [0x00, 0xa0, 0xe2, 0x00, 0x00, 0x00, 0x00, 0x00, 0x01, 0x00, 0x00, 0x00])))
      (fun t => t.ip == 0x8030 && t.fcode == 0x100000000) = true := by
  decide +kernel
theorem test_paged_read : translate (paged 0x2000e (code [])) true .read 0x401234 = .ok 0x20234 := by decide +kernel
theorem test_paged_fetch_needs_exec :
    translate (paged 0x2000e (code [])) true .fetch 0x401234 =
      .error (.exc (.pf { fcode := 0x401234, pref := 0x2000e, plevel := 0, kind := 2, status := 3 })) := by decide +kernel
theorem test_paged_prevented :
    translate (paged 0x2001f (code [])) false .fetch 0x401234 =
      .error (.exc (.pf { fcode := 0x401234, pref := 0x2001f, plevel := 0, kind := 2, status := 0x800 })) := by decide +kernel
theorem test_paged_nested_empty :
    translate (put8 0x11010 0x12000 (paged 0x2000e (code []))) false .read 0x401234 =
      .error (.exc (.pf { fcode := 0x401234, pref := 0x12000, plevel := 1, kind := 0, status := 0x1000 })) := by decide +kernel
theorem test_paged_table_out_of_range :
    translate (put8 0x11010 0x100000001 (paged 0x2000e (code []))) false .read 0x401234 =
      .error (.exc (.pf { fcode := 0x401234, pref := 0, plevel := 0, kind := 0, status := 0x300 })) := by decide +kernel
theorem test_paged_entry_cut_off :
    translate { paged 0x2000e (code []) with cfg := { Params.default with absent := [{ base := 0x1200b, size := 1 }] } }
        false .read 0x401234 =
      .error (.exc (.pf { fcode := 0x401234, pref := 0, plevel := 0, kind := 0xff, status := 0 })) := by decide +kernel
theorem test_rstregf_remaps :
    stopsWith (step (put8 0x30080 0x401234 (put8 0x30100 1 (put8 0x30108 0x10000
      { paged 0x20003 (code [0x80, 0x90, 0xe1, 0x00, 0x00, 0x00, 0x03, 0x00]) with cr0 := 0, brCr0 := 0 }))))
      .mappingChanged = true := by decide +kernel
theorem test_boot_image :
    (State.initial Params.default [0x12, 0, 0x34]).mem.read 2 = 0x34 ∧
      (State.initial Params.default [0x12, 0, 0x34]).mem.wf := by decide +kernel
theorem test_paged_out_of_range :
    translate (paged 0x2000e (code [])) false .read 0x80000000 =
      .error (.exc (.pf { fcode := 0x80000000, pref := 0, plevel := 0, kind := 0, status := 0x200 })) := by decide +kernel

/-! ### A witness for the hypotheses of each obligation that has some -/

theorem next_of_after (o : Host.Outcome State Fault Refusal) (p : State → Bool) (h : after o p = true) :
    ∃ t, o = .next t ∧ p t = true := by
  cases o <;> simp_all [after]

theorem ok_of_isSome {ε α : Type} (x : Except ε α) (h : x.toOption.isSome = true) : ∃ a, x = .ok a := by
  cases x <;> simp_all [Except.toOption]

/-- The state most witnesses use: gprs that point at memory, a table, in supervisor mode with paging off. -/
def wit : State :=
  gpr 0 5 (gpr 3 7 (gpr 4 0x5000 (gpr 5 0x6000 (gpr 14 0x3000 (gpr 15 0x3002 (put8 0x5000 5 (table 2048 (code []))))))))

/-- An 8-byte memory operand at 0x5000. -/
def ma : Operand := .ind (.num 0) 0 .b64 4

/-- r0 as an 8-byte operand. -/
def ra : Operand := .reg .b64 0

/-- `wit` with the implementation parameters that the specification leaves open at their other values. -/
def witAlt : State :=
  { wit with cfg := { wit.cfg with
      intWhenDisabled := .prot, repbcZeroEntry := .skip, msrBehaviour := .storage, otherCpus := 3
      absent := [{ base := 0x10000, size := 0x1000 }], machInstr := [⟨0, 1⟩, ⟨30, 15⟩]
      ioDevices := [{ base := 0x100000000, size := 0x10 }] } }

/-- `wit` on a machine that gives its machine-specific registers a behaviour of their own. -/
def witMachine : State := { wit with cfg := { wit.cfg with msrBehaviour := .machine } }

/-- The control register cr0, which no value with bit 2 set can be written to. -/
def rc : Operand := .reg .b64 128

/-- `wit` with IE set in cr0, as a value that an operation on it changes. -/
def ctl : State := { wit with cr0 := 2 }

/-- `wit` with r4, and so the memory operand, beyond the physical range; and the fault there. -/
def far : State := gpr 4 0x100000000 wit

def farFault (kind : Byte) : Trap := .exc (.pf { fcode := 0x100000000, pref := 0, plevel := 0, kind := kind, status := 0x600 })

/-- A state whose memory operand can be read but not written, and the fault of a write. -/
def rom : State := gpr 4 0x401000 (paged 0x2000d (code []))

def romFault : Trap := .exc (.pf { fcode := 0x401000, pref := 0x2000d, plevel := 0, kind := 1, status := 0 })

theorem witness_DecodeEncode :
    WellFormed (.ijmp true 13) = true ∧ WellFormed (.machineSpecific 30 15) = true ∧
      WellFormed (.repbi .np (.invalid 0xffff)) = true := by decide

theorem witness_EncodeDecode : decode [0xfc, 0x70, 0xff] = .ok (.reti, [0xff]) := by decide +kernel

theorem witness_EncodedLength :
    let i : Instr := .nop3 (.long false (.i64 1)) (.long true (.i64 2)) (.mref false (.i64 3) .b8)
    WellFormed i = true ∧ (encode i).length = 32 ∧ WellFormed .nop0 = true ∧ (encode .nop0).length = 2 := by decide

theorem witness_StepRunsDecoded :
    let s := code [0x00, 0x10, 0x03, 0x00, 0x80, 0x05]
    let i : Instr := .add false false (.reg .b64 0) (.short false 5)
    pendingDelivery s = none ∧ s.halted = false ∧ IpAligned s ∧ WellFormed i = true ∧
      machineUnits s i = 0 ∧ (∃ t, exec i s = .next t ∧ pagingOn s.cr0 = false ∧ pagingOn t.cr0 = false) ∧
      ∀ k, 2 * k < (encode i).length →
        fetchUnit s (s.ip + BitVec.ofNat 64 (2 * k)) = .ok (((encode i).drop (2 * k)).take 2) := by
  refine ⟨rfl, rfl, by unfold IpAligned; decide +kernel, rfl, rfl, ?_, fun k h => ?_⟩
  · obtain ⟨t, h, hp⟩ := next_of_after (exec (.add false false (.reg .b64 0) (.short false 5))
      (code [0x00, 0x10, 0x03, 0x00, 0x80, 0x05])) (fun t => !pagingOn t.cr0) (by decide +kernel)
    exact ⟨t, h, by decide +kernel, by simpa using hp⟩
  have h6 : 2 * k < 6 := h
  have h3 : k < 3 := by omega
  have hall : ∀ k ∈ [0, 1, 2], fetchUnit (code [0x00, 0x10, 0x03, 0x00, 0x80, 0x05])
      ((code [0x00, 0x10, 0x03, 0x00, 0x80, 0x05]).ip + BitVec.ofNat 64 (2 * k)) =
        .ok (((encode (.add false false (.reg .b64 0) (.short false 5))).drop (2 * k)).take 2) := by decide +kernel
  exact hall k (by simp; omega)

/-- Instructions that access machine-specific registers: by an operand, and all of them. -/
theorem witness_StepRunsDecoded_msr :
    (∀ r ∈ [(148 : BitVec 8), 154], accessesMsr witMachine (.push (.reg .b64 r)) = true ∧
      after (exec (.push (.reg .b64 r)) witMachine) (fun _ => true) = true) ∧
      (accessesMsr witMachine (.storegf ma) = true ∧ accessesMsr witMachine (.rstregf ma) = true) ∧
      (∀ i ∈ [Instr.push (.reg .b64 145), .nop1 (.reg .b64 148)], accessesMsr witMachine i = false) ∧
      accessesMsr wit (.push (.reg .b64 148)) = false ∧ accessesMsr (prog witMachine) (.push (.reg .b64 148)) = false := by
  decide +kernel

/-- A write of `page` that ends its page and unmaps it, and one that keeps `page` as it is. -/
def remap (page : BitVec 32) : State × Instr :=
  let i : Instr := .mov (.reg .b64 129) (.long false (.i32 page))
  ({ put 0x20ff6 (encode i) (paged 0x20003 (code [])) with ip := 0x401ff6 }, i)

theorem witness_StepRunsDecoded_mapping :
    (∃ s i t, remap 0x13000 = (s, i) ∧ fetchUnit s s.ip = .ok [0, 0x80] ∧ exec i s = .next t ∧ pagingOn s.cr0 = true ∧
      s.brCr0 = s.cr0 ∧ s.brPage = s.page ∧ s.brMem = s.mem ∧ ptlBits t.cr0 = ptlBits s.cr0 ∧
      t.page.extractLsb' 0 12 = 0#12 ∧ t ≠ resetCpu t ∧ mappedTo t s.ip ≠ mappedTo s s.ip ∧
      stopsWith (step s) .mappingChanged = true) ∧
    ∃ s i t, remap 0x10000 = (s, i) ∧ exec i s = .next t ∧ t.cr0 = s.cr0 ∧ t.page = s.page ∧ t.mem = s.mem ∧ t.cfg = s.cfg := by
  constructor
  · obtain ⟨t, h, hp⟩ := next_of_after (exec (remap 0x13000).2 (remap 0x13000).1)
      (fun t => ptlBits t.cr0 == ptlBits (remap 0x13000).1.cr0 && t.page.extractLsb' 0 12 == 0#12 && t != resetCpu t &&
        mappedTo t (remap 0x13000).1.ip != mappedTo (remap 0x13000).1 (remap 0x13000).1.ip) (by decide +kernel)
    simp only [Bool.and_eq_true, beq_iff_eq, bne_iff_ne] at hp
    obtain ⟨⟨⟨h1, h2⟩, h3⟩, h4⟩ := hp
    exact ⟨_, _, t, rfl, by decide +kernel, h, by decide +kernel, by decide +kernel, by decide +kernel, by decide +kernel, h1, h2, h3,
      h4, by decide +kernel⟩
  · obtain ⟨t, h, hp⟩ := next_of_after (exec (remap 0x10000).2 (remap 0x10000).1)
      (fun t => decide (t.cr0 = (remap 0x10000).1.cr0 ∧ t.page = (remap 0x10000).1.page ∧ t.mem = (remap 0x10000).1.mem ∧
        t.cfg = (remap 0x10000).1.cfg)) (by decide +kernel)
    exact ⟨_, _, t, rfl, h, of_decide_eq_true hp⟩

theorem witness_FetchOldOrNew :
    pagingOn wit.cr0 = false ∧ pagingOn wit.brCr0 = false ∧
      (physInRange wit.cfg 0 = true ∧ present wit.cfg 0 = true ∧ physInRange wit.cfg (0 + 1) = true ∧
        present wit.cfg (0 + 1) = true) ∧
      (physInRange wit.cfg 0xfffffffe = true ∧ present wit.cfg 0xfffffffe = true ∧
        physInRange wit.cfg (0xfffffffe + 1) = true ∧ present wit.cfg (0xfffffffe + 1) = true) := by decide +kernel

theorem witness_FetchFaultsTaken :
    let odd : State := { wit with ip := 0x1001 }
    let far : State := { wit with ip := 0x100000000 }
    let bad : State := code [0x02, 0xf0]
    (pendingDelivery odd = none ∧ odd.halted = false ∧ odd.ip.getLsbD 0 = true) ∧
      (pendingDelivery far = none ∧ far.halted = false ∧ far.ip.getLsbD 0 = false ∧
        fetchFrom far 16 far.ip [] = .error (.exc (.pf
          { fcode := 0x100000000, pref := 0, plevel := 0, kind := 2, status := 0x600 }))) ∧
      (pendingDelivery bad = none ∧ bad.halted = false ∧ bad.ip.getLsbD 0 = false ∧
        fetchFrom bad 16 bad.ip [] = .ok [0x02, 0xf0] ∧ decode [0x02, 0xf0] = .error .unassignedOpcode) :=
  ⟨⟨rfl, rfl, by decide +kernel⟩, ⟨rfl, rfl, by decide +kernel, by decide +kernel⟩,
    ⟨rfl, rfl, by decide +kernel, by decide +kernel, by decide +kernel⟩⟩

/-- A machine-specific instruction whose operand lies beyond the physical range; and what may continue, and what may not. -/
theorem witness_FetchFaultsTaken_machine :
    let cut : State := { put 0xfffffffe [0xfe, 0x00] witAlt with ip := 0xfffffffe }
    (pendingDelivery cut = none ∧ cut.halted = false ∧ cut.ip.getLsbD 0 = false ∧
      fetchFrom cut 16 cut.ip [] = .ok [0xfe, 0x00] ∧ decode [0xfe, 0x00] = .ok (.machineSpecific 0 0, []) ∧
      machineOpcode cut.cfg 0 = some ⟨0, 1⟩ ∧ fetchUnits cut 1 (cut.ip + 2) = .error (.exc (.pf
        { fcode := 0x100000000, pref := 0, plevel := 0, kind := 2, status := 0x600 }))) ∧
      pagingOn cut.cr0 = false ∧ mayContinue wit (takeException wit .und) (wit.ip + 1) = true := by decide +kernel

theorem witness_InterruptBoundary :
    let idle : State := { wit with halted := true, irq := 0xffffffff }
    let last : State := { wit with cr0 := 2, irq := 0x80000000 }
    let first : State := { wit with cr0 := 2, irq := 0xffffffff }
    (idle.halted = true ∧ idle.nmi = false ∧ interruptsOn idle.cr0 = false) ∧ wit.raiseNmi.nmi = true ∧
      (last.nmi = false ∧ interruptsOn last.cr0 = true ∧ last.irq.getLsbD 31 = true ∧
        ∀ j, j < 31 → last.irq.getLsbD j = false) ∧
      (first.nmi = false ∧ interruptsOn first.cr0 = true ∧ first.irq.getLsbD 0 = true ∧
        ∀ j, j < 0 → first.irq.getLsbD j = false) ∧
      interruptsOn wit.cr0 = false ∧ pagingOn wit.cr0 = false := by decide +kernel

theorem witness_StepKeepsInv : Inv State.reset ∧ ∃ t, step State.reset = .next t := by
  refine ⟨⟨?_, ?_, ?_, ?_, ?_, ?_⟩, ?_⟩
  · unfold MemoryCanonical; decide
  · unfold ModeLegal; decide
  · unfold FlagsLegal; decide
  · unfold Cr0Legal; decide
  · unfold SccrLegal; decide
  · unfold IpAligned; decide
  · obtain ⟨t, h, -⟩ := next_of_after (step State.reset) (fun _ => true) (by decide +kernel)
    exact ⟨t, h⟩

theorem witness_ProgramModeKeepsSupervisor :
    let s := prog (code [0x00, 0x80, 0x03, 0x00, 0x80, 0x07])
    s.xm = true ∧ ∃ t, step s = .next t ∧ t.xm = true :=
  ⟨by decide +kernel, next_of_after _ _ (by decide +kernel)⟩

theorem witness_OnlyModeWriters :
    writesMode .fence = false ∧ (∃ t, exec .fence wit = .next t) ∧
      writesMode (.halt) = false ∧ ∃ t, exec .halt (prog wit) = .next t := by
  refine ⟨rfl, ?_, rfl, ?_⟩
  · obtain ⟨t, h, -⟩ := next_of_after (exec .fence wit) (fun _ => true) (by decide +kernel)
    exact ⟨t, h⟩
  · obtain ⟨t, h, -⟩ := next_of_after (exec .halt (prog wit)) (fun _ => true) (by decide +kernel)
    exact ⟨t, h⟩

theorem witness_EntrySequence :
    itabEntry wit 2 = .ok { ip := 0x8020, sp := 0 } ∧ itabEntry wit 63 = .ok { ip := 0, sp := 0 } ∧
      translateAll wit false .write ((if (0 : Word) = 0 then getGpr wit 7 else 0) - 32) 32 = .ok (span 0x7fe0 32) ∧
      checkTarget wit false 0x8020 = .ok () ∧ checkTarget wit false 0 = .ok () := by decide +kernel

theorem witness_ExceptionVectors :
    wit.pfcharp = 0 ∧
      (∃ t, enter { wit with fcode := Config.freeFcode wit.freeCtr } 1 wit.ip wit.flags (getGpr wit 7) = .ok t) ∧
      (∃ t, enter { wit with fcode := 0 } 2 wit.ip wit.flags (getGpr wit 7) = .ok t) ∧
      (∃ t, enter { wit with fcode := 0x100000000 } 3 wit.ip wit.flags (getGpr wit 7) = .ok t) ∧
      (∃ t, enter { wit with fcode := 0x2001 } 4 wit.ip wit.flags (getGpr wit 7) = .ok t) ∧
      (∃ t, enter { wit with fcode := Config.freeFcode wit.freeCtr } 6 wit.ip wit.flags (getGpr wit 7) = .ok t) :=
  ⟨by decide +kernel, ok_of_isSome _ (by decide +kernel), ok_of_isSome _ (by decide +kernel),
    ok_of_isSome _ (by decide +kernel), ok_of_isSome _ (by decide +kernel), ok_of_isSome _ (by decide +kernel)⟩

theorem witness_Escalation :
    ({ wit with itabp := 0x108 } : State).itabp.extractLsb' 0 5 ≠ 0#5 ∧
      (wit.itabp.extractLsb' 0 5 = 0#5 ∧ physRead8 wit wit.itabp = .ok 2048 ∧ min (2048 : Word).toNat 2048 < 32 * (64 + 1)) ∧
      (let none := table 31 (code [])
       none.itabp.extractLsb' 0 5 = 0#5 ∧ physRead8 none none.itabp = .ok 31 ∧ min (31 : Word).toNat 2048 < 32 * (0 + 1)) ∧
      ∀ v ∈ [0, 16, 63], enter (gpr 7 0 wit) v 0 (gpr 7 0 wit).flags (getGpr (gpr 7 0 wit) 7) = .error .servicing := by
  decide +kernel

/-- Entries that succeed: vectors 5, 32 and 63, and ABRT; and an entry of ABRT that fails. -/
theorem witness_Escalation_entry :
    (∀ v ∈ [5, 32, 63], ∃ t, enter wit v wit.ip wit.flags (getGpr wit 7) = .ok t) ∧
      (∃ t, enter { wit with fcode := 0 } 0 (Config.abortIp wit.freeCtr) (Config.abortFlags wit.freeCtr)
        (Config.abortSp wit.freeCtr) = .ok t) ∧
      enter { gpr 7 0 wit with fcode := 0 } 0 (Config.abortIp wit.freeCtr) (Config.abortFlags wit.freeCtr)
        (Config.abortSp wit.freeCtr) = .error .servicing := by
  refine ⟨fun v hv => ?_, ok_of_isSome _ (by decide +kernel), by decide +kernel⟩
  have h : ∀ v ∈ [5, 32, 63], (enter wit v wit.ip wit.flags (getGpr wit 7)).toOption.isSome = true := by decide +kernel
  exact ok_of_isSome _ (h v hv)

theorem witness_FaultInformation :
    let top : State := { wit with pfcharp := 0xfffffff0 }
    let odd : State := { wit with pfcharp := 0x108 }
    let far : State := { wit with pfcharp := 0x100000000 }
    wit.pfcharp = 0 ∧
      (top.pfcharp ≠ 0 ∧ top.pfcharp.extractLsb' 0 4 = 0#4 ∧
        translateAll top false .write top.pfcharp 16 = .ok (span 0xfffffff0 16)) ∧
      (odd.pfcharp ≠ 0 ∧ odd.pfcharp.extractLsb' 0 4 ≠ 0#4) ∧
      (far.pfcharp ≠ 0 ∧ translateAll far false .write far.pfcharp 16 = .error (.exc (.pf
          { fcode := 0x100000000, pref := 0, plevel := 0, kind := 1, status := 0x600 }))) := by decide +kernel

theorem witness_ReturnUndoesEntry :
    let s := prog wit
    pagingOn s.cr0 = false ∧ ModeLegal s ∧ (0x3000 : Word).getLsbD 0 = false ∧ physInRange s.cfg 0x3000 = true ∧
      present s.cfg 0x3000 = true ∧ ∃ t, enter s 2 0x3000 s.flags (getGpr s 7) = .ok t :=
  ⟨by decide +kernel, by unfold ModeLegal; decide +kernel, by decide, by decide +kernel, by decide +kernel,
    ok_of_isSome _ (by decide +kernel)⟩

theorem witness_SupervisorOnly : (prog wit).xm = true := by decide +kernel

theorem witness_AddressRanges :
    pagingOn witAlt.cr0 = false ∧ ¬ (0x100000000 : Word).toNat < 2 ^ (32 + 4 * witAlt.cfg.pas.toNat) ∧
      ((0x10000 : Word).toNat < 2 ^ (32 + 4 * witAlt.cfg.pas.toNat) ∧ present witAlt.cfg 0x10000 = false) ∧
      ((0xffffffff : Word).toNat < 2 ^ (32 + 4 * witAlt.cfg.pas.toNat) ∧ present witAlt.cfg 0xffffffff = true) ∧
      (0xffff : Word).toNat < 0x10000 ∧ virtInRange 0 0x7fffffff = true ∧ virtInRange 0 0x80000000 = false ∧
      virtInRange 0 0xffffffff80000000 = true ∧ virtInRange 0 0xffffffff7fffffff = false := by decide +kernel

/-- A paged state, and one for each failing step of the walk and of the checks after it. -/
theorem witness_PageRights :
    let s := paged 0x2000e (code [])
    let bad : State := { s with page := 0x10001 }
    let empty := put8 0x11010 0x12000 s
    let sxp := paged 0x20013 (code [])
    let far := paged 0x10000000e (code [])
    let hole : State := { s with cfg := { s.cfg with absent := [{ base := 0x20234, size := 1 }] } }
    let cut : State := { s with cfg := { s.cfg with absent := [{ base := 0x1200b, size := 1 }] } }
    let up : State := { s with cr0 := 0x21, wptl := 0 }
    let found (s : State) (xm : Bool) (k : Access) : Except Trap Leaf :=
      walk s xm k 0x401234 (walkPtl s 0x401234) (topLevel (walkPtl s 0x401234)) (entryAddress s.page) false false
    (pagingOn s.cr0 = true ∧ translate s true .write 0x401fff = .ok 0x20fff ∧ virtInRange (ptlOf s.cr0) 0x401234 = true ∧
      s.page.extractLsb' 0 12 = 0#12 ∧ bad.page.extractLsb' 0 12 ≠ 0#12) ∧
      (found empty false .read = .error (.exc (.pf
        { fcode := 0x401234, pref := 0x12000, plevel := 1, kind := 0, status := 0x1000 }))) ∧
      (found s true .fetch = .ok { entry := 0x2000e, xm := true, sxp := false } ∧ (0x2000e : Word).extractLsb' 0 2 ≠ 3#2) ∧
      found sxp false .fetch = .ok { entry := 0x20013, xm := false, sxp := true } ∧
      (found far false .read = .ok { entry := 0x10000000e, xm := true, sxp := false } ∧
        physInRange far.cfg (0x100000000 ||| 0x234) = false) ∧
      (found hole false .read = .ok { entry := 0x2000e, xm := true, sxp := false } ∧ present hole.cfg 0x20234 = false) ∧
      (0 < 6 ∧ 5 < 6 ∧ physInRange s.cfg (0x100000000 + 7) = false ∧ physInRange s.cfg (0x12008 + 7) = true ∧
        present cut.cfg (0x12008 + BitVec.ofNat 64 3) = false ∧ (∀ i < 8, present s.cfg (0x12008 + BitVec.ofNat 64 i) = true) ∧
        levelIndex 0 1 0x401234 = 1) ∧
      walkStep s false .read 0x401234 0x12000 0 (0 + 1) = .ok 0x2000e ∧
      (ptlOf up.cr0 = 4 ∧ virtInRange up.wptl.toNat 0x401234 = true) := by decide +kernel

theorem witness_AccessAddresses :
    translateAll wit true .read 0xffe 4 = .ok [0xffe, 0xfff, 0x1000, 0x1001] ∧ translateAll wit true .read 0 0 = .ok [] ∧
      (∃ ps, translateAll wit false .write 0xfff 512 = .ok ps) ∧
      translateAll wit true .read 0xfffffffe 4 = .error (.exc (.pf
        { fcode := 0x100000000, pref := 0, plevel := 0, kind := 0, status := 0x603 })) :=
  ⟨by decide +kernel, by decide +kernel, ok_of_isSome _ (by decide +kernel), by decide +kernel⟩

theorem witness_StoreThenLoad :
    (span 0xfffffff8 8).Nodup ∧ (span 0xfffffff8 8).length ≤ 8 ∧ 8 ≤ (span 0xfffffff8 8).length ∧ ([] : List Nat).Nodup ∧
      ((span 0x5000 16).Nodup ∧ (List.replicate 16 (7 : Byte)).length = (span 0x5000 16).length) := by
  decide

/-- The checks themselves at the first and last register of each range. -/
theorem witness_RegisterChecks :
    (∀ n ∈ [19, 127, 146, 147, 155, 255], regReadCheck wit n = .error (.exc .und) ∧ regWriteCheck wit n = .error (.exc .und)) ∧
      ((prog wit).xm = true ∧ ∀ n ∈ [128, 135, 144, 145, 148, 154], regReadCheck (prog wit) n = .error (.exc .prot)) ∧
      (wit.xm = false ∧ ∀ n ∈ [128, 135, 144, 145], regWriteCheck wit n = .ok ()) ∧
      (wit.cfg.msrBehaviour = .refuse ∧ ∀ n ∈ [148, 154], regReadCheck wit n = .error (.refuse (.machineRegister n))) ∧
      (witAlt.xm = false ∧ witAlt.cfg.msrBehaviour ≠ .refuse ∧ ∀ n ∈ [148, 154], regReadCheck witAlt n = .ok ()) ∧
      (∀ n ∈ [136, 143], (prog wit).ciread.getLsbD (n - 136) = false ∧ regReadCheck (prog wit) n = .error (.exc .prot)) ∧
      (∀ n ∈ [136, 143], ({ prog wit with ciread := 0x81 } : State).ciread.getLsbD (n - 136) = true) ∧
      ∀ n ∈ [0, 15], regWriteCheck (prog wit) n = .ok () := by decide +kernel

theorem witness_ModeAndControlWrites :
    (prog wit).xm = true ∧ wit.xm = false ∧
      (∃ i, (4 : Word).getLsbD i = true ∧ i ∉ [0, 1, 3, 4, 5]) ∧
      ((∀ i, (0x39 : Word).getLsbD i = true → i ∈ [0, 1, 3, 4, 5]) ∧ wit.cfg.vas.val < ((0x39 : Word).extractLsb' 3 3).toNat) ∧
      ((∀ i, (0x23 : Word).getLsbD i = true → i ∈ [0, 1, 3, 4, 5]) ∧ ((0x23 : Word).extractLsb' 3 3).toNat ≤ wit.cfg.vas.val ∧
        (0x23 : Word).getLsbD 0 = true ∧ wit.cr0.getLsbD 0 = false ∧
        ({ wit with page := 1 } : State).page.extractLsb' 0 12 ≠ 0#12 ∧ wit.page.extractLsb' 0 12 = 0#12) ∧
      (∃ i, i ≠ 1 ∧ (1 : Word).getLsbD i ≠ wit.sccr.getLsbD i) ∧
      ∀ i, i ≠ 1 → (2 : Word).getLsbD i = wit.sccr.getLsbD i := by
  have low : ∀ (v : Word) (l : List Nat), (∀ i < 64, v.getLsbD i = true → i ∈ l) → ∀ i, v.getLsbD i = true → i ∈ l := by
    intro v l h i hi
    exact h i (BitVec.lt_of_getLsbD hi) hi
  refine ⟨by decide +kernel, by decide +kernel, ⟨2, by decide⟩, ⟨low _ _ (by decide), by decide +kernel⟩,
    ⟨low _ _ (by decide), by decide +kernel⟩, ⟨0, by decide +kernel⟩, fun i hi => ?_⟩
  have hs : wit.sccr = 0 := by decide +kernel
  rw [hs]
  have all : ∀ i < 64, i ≠ 1 → (2 : Word).getLsbD i = (0 : Word).getLsbD i := by decide
  by_cases h64 : i < 64
  · exact all i h64 hi
  · simp [BitVec.getLsbD_of_ge _ _ (Nat.le_of_not_lt h64)]

theorem witness_WriteDestination :
    (witAlt.cfg.msrBehaviour ≠ .machine ∧ witMachine.cfg.msrBehaviour = .machine ∧
      (148 = 148 + (0 : Fin 7).val ∧ 154 = 148 + (6 : Fin 7).val)) ∧
    (∀ n ∈ [0, 15, 128, 135, 144, 145, 148, 154],
      n < 16 ∨ (128 ≤ n ∧ n ≤ 135) ∨ n = 144 ∨ n = 145 ∨ (148 ≤ n ∧ n ≤ 154)) ∧ 64 ≤ 64 ∧
      (span 0x5000 8).Nodup ∧ (span 0x5000 8).length ≤ 8 := by decide

theorem witness_ReadOperand :
    isMem ma = true ∧ translateAll wit wit.xm .read (addrOf wit 0x1004 ma) (bitsOf ma / 8) = .ok (span 0x5000 8) ∧
      loadOp wit 0x1004 ma = .ok 5 := by decide +kernel

theorem witness_AddSubFlags :
    (8 ∈ [8, 12, 16, 32, 64] ∧ (0xff : Word).toNat < 2 ^ 8 ∧ AluOp.add.ResultIs 8 0xff 1 0 ∧ AluOp.sub.ResultIs 8 0 1 0xff) ∧
      64 ∈ [8, 12, 16, 32, 64] ∧ m64.toNat < 2 ^ 64 ∧ AluOp.add.ResultIs 64 m64 1 0 ∧ AluOp.sub.ResultIs 64 0 1 m64 := by
  unfold AluOp.ResultIs
  decide

theorem witness_LogicAndResultFlags : ∀ d ∈ [8, 64], d ∈ [8, 12, 16, 32, 64] := by decide

theorem witness_UndefinedTraps :
    aluShape true ra ra = false ∧ isWritable (.short false 5) = false ∧ movShape ma ma = false ∧ leaShape ra ra = false ∧
      isMem ra = false ∧ wit.xm = false ∧ popShape (.reg .b32 0) = false ∧ movsxShape ma ma = false ∧
      bswapShape ra (.reg .b32 1) = false ∧ unaryShape true ra = false ∧ cmpShape ma ma = false ∧ xchgShape ma ma = false ∧
      (∀ m ∈ wit.cfg.machInstr, m.lo ≠ 0) ∧ (∃ m ∈ (prog witAlt).cfg.machInstr, m.lo = 30) ∧ (prog witAlt).xm = true ∧
      machineOpcode witAlt.cfg 30 = some ⟨30, 15⟩ ∧ witAlt.xm = false := by
  decide +kernel

theorem witness_UndefinedTraps_machine :
    let e : MachineEffect := { flags := 2, registers := [], stores := [(0x5000, 7)], flushes := false, halts := false, target := none }
    let u : State := { wit with mem := machineStores wit.cfg wit.mem e.stores, flags := writtenFlags wit e.flags, halted := e.halts }
    (e.registers = [] ∧ e.flushes = false ∧ e.stores = [(0x5000, 7)] ∧ e.target = none) ∧ (0x5000 : Word).toNat ≠ 0x5001 ∧
      ({ e with target := some 0x2000 } : MachineEffect).target = some 0x2000 ∧ checkTarget u u.xm 0x2000 = .ok () ∧
      regWriteCheck wit (16 : BitVec 8).toNat = .error (.exc .und) ∧
      (regWriteCheck wit (128 : BitVec 8).toNat = .ok () ∧ regValueCheck wit (128 : BitVec 8).toNat 4 = .error (.exc .und)) := by
  decide +kernel

/-- A register write that passes its checks, stores to where there is memory and to where there is none, and a flush. -/
theorem witness_UndefinedTraps_effects :
    let e : MachineEffect :=
      { flags := 0, registers := [(0, 7), (128, 2)], stores := [(0x5000, 7)], flushes := true, halts := true, target := none }
    (e.registers = [((0 : BitVec 8), 7), (128, 2)] ∧ regWriteCheck wit (0 : BitVec 8).toNat = .ok () ∧
      regValueCheck wit (0 : BitVec 8).toNat 7 = .ok () ∧ regWriteCheck wit (128 : BitVec 8).toNat = .ok () ∧
      regValueCheck wit (128 : BitVec 8).toNat 2 = .ok ()) ∧
      (({ e with registers := [] } : MachineEffect).registers = [] ∧ e.flushes = true ∧ e.target = none) ∧
      (physInRange witAlt.cfg 0xffff = true ∧ present witAlt.cfg 0xffff = true) ∧ present witAlt.cfg 0x10000 = false ∧
      physInRange witAlt.cfg 0x100000000 = false := by decide +kernel

theorem witness_AluResult :
    let a : Operand := .reg .b8 0
    let b : Operand := .short false 0xfff
    (aluShape true ma ra = true ∧ Reads wit (nextIp wit [ma, ra]) ma 5 ∧ Reads wit (nextIp wit [ma, ra]) ra 5 ∧
      AluOp.add.ResultIs (bitsOf ma) 5 5 10 ∧ Accepts wit (nextIp wit [ma, ra]) ma (.mem (span 0x5000 8)) 10 ∧
      (5 : Word).toNat < 2 ^ bitsOf ma) ∧
      (aluShape false a b = true ∧ Reads wit (nextIp wit [a, b]) a 5 ∧ Reads wit (nextIp wit [a, b]) b 0xfff ∧
        AluOp.add.ResultIs (bitsOf a) 5 0xfff 4 ∧ Accepts wit (nextIp wit [a, b]) a (.reg 0 8) 4) := by
  unfold Reads Accepts AluOp.ResultIs
  decide +kernel

/-- Each check failing: of the first operand, of the second, a load of either, the store, and the value. -/
theorem witness_AluResult_faults :
    let checks (s : State) (a b : Operand) := let n := nextIp s [a, b]
      [opUpdateCheck s a, opReadCheck s b, attempt (loadOp s n a), attempt (loadOp s n b), attempt (destOf s n a)]
    (∀ p ∈ [((.reg .b64 136 : Operand), ra), (ra, .reg .b64 19)], aluShape false p.1 p.2 = true ∧
      Raises (checks wit p.1 p.2) (.exc .und)) ∧
      (aluShape false ma ra = true ∧ aluShape false ra ma = true ∧ Raises (checks far ma ra) (farFault 0) ∧
        Raises (checks far ra ma) (farFault 0) ∧ Raises (checks rom ma ra) romFault) ∧
      (aluShape false rc (.short false 4) = true ∧ let n := nextIp wit [rc, .short false 4]
        Reads wit n rc 0 ∧ Reads wit n (.short false 4) 4 ∧ AluOp.or.ResultIs (bitsOf rc) 0 4 4 ∧
          ∃ dst, opWriteCheck wit rc = .ok () ∧ destOf wit n rc = .ok dst ∧ destCheck wit dst 4 = .error (.exc .und)) := by
  unfold Reads AluOp.ResultIs
  exact ⟨by decide +kernel, by decide +kernel, by decide +kernel, by decide +kernel, by decide +kernel, by decide +kernel,
    .reg 128 64, by decide +kernel⟩

theorem witness_AluGprResult :
    (Reads wit (nextIp wit [ma]) ma 5 ∧ (7 : Word).toNat = (getGpr wit 3).toNat % 2 ^ (if isImm ma then 64 else bitsOf ma) ∧
      AluOp.sub.ResultIs (if isImm ma then 64 else bitsOf ma) 7 5 2) ∧
      (isWritable ma = true ∧ Reads wit (nextIp wit [ma]) ma 5 ∧ (7 : Word).toNat = (getGpr wit 3).toNat % 2 ^ bitsOf ma ∧
        AluOp.xor.ResultIs (bitsOf ma) 5 7 2 ∧ Accepts wit (nextIp wit [ma]) ma (.mem (span 0x5000 8)) 2) := by
  unfold Reads Accepts AluOp.ResultIs
  decide +kernel

theorem witness_AluGprResult_faults :
    Raises [opReadCheck far ma, attempt (loadOp far (nextIp far [ma]) ma)] (farFault 0) ∧
      (isWritable ma = true ∧
        Raises [opUpdateCheck rom ma, attempt (loadOp rom (nextIp rom [ma]) ma), attempt (destOf rom (nextIp rom [ma]) ma)] romFault) ∧
      (isWritable rc = true ∧ Reads wit (nextIp wit [rc]) rc 0 ∧ (7 : Word).toNat = (getGpr wit 3).toNat % 2 ^ bitsOf rc ∧
        AluOp.xor.ResultIs (bitsOf rc) 0 7 7 ∧ Rejects wit (nextIp wit [rc]) rc 7 (.exc .und)) := by
  unfold Rejects Reads AluOp.ResultIs
  exact ⟨by decide +kernel, by decide +kernel, by decide +kernel, by decide +kernel, by decide +kernel, by decide +kernel,
    by decide +kernel, .reg 128 64, by decide +kernel⟩

theorem witness_DivideResult :
    (getGpr wit 3).toNat % 2 ^ (8 * Size.b8.bytes) ≠ 0 ∧ (getGpr (gpr 3 0x300 wit) 3).toNat % 2 ^ (8 * Size.b8.bytes) = 0 := by
  decide +kernel

theorem witness_MoveAndAddressResult :
    let r8 : Operand := .reg .b8 1
    (movShape r8 ma = true ∧ Reads wit (nextIp wit [r8, ma]) ma 5 ∧ (5 : Word).toNat = (5 : Word).toNat % 2 ^ bitsOf r8 ∧
      Accepts wit (nextIp wit [r8, ma]) r8 (.reg 1 8) 5) ∧
      Reads wit (nextIp wit [ma]) ma 5 ∧
      (isWritable ma = true ∧ (7 : Word).toNat = (getGpr wit 3).toNat % 2 ^ bitsOf ma ∧
        Accepts wit (nextIp wit [ma]) ma (.mem (span 0x5000 8)) 7) ∧
      (leaShape ra ma = true ∧ Accepts wit (nextIp wit [ra, ma]) ra (.reg 0 64) (addrOf wit (nextIp wit [ra, ma]) ma)) ∧
      isMem ma = true := by
  unfold Reads Accepts
  decide +kernel

theorem witness_MoveAndAddressResult_faults :
    let n := nextIp wit [rc, ra]
    let m := nextIp wit [rc, ma]
    (movShape ra ma = true ∧ Raises [opWriteCheck far ra, opReadCheck far ma, attempt (loadOp far (nextIp far [ra, ma]) ma),
        attempt (destOf far (nextIp far [ra, ma]) ra)] (farFault 0) ∧
      movShape ma ra = true ∧ Raises [opWriteCheck rom ma, opReadCheck rom ra, attempt (loadOp rom (nextIp rom [ma, ra]) ra),
        attempt (destOf rom (nextIp rom [ma, ra]) ma)] romFault) ∧
      (Raises [opReadCheck far ma, attempt (loadOp far (nextIp far [ma]) ma)] (farFault 0) ∧
        Raises [opWriteCheck rom ma, attempt (destOf rom (nextIp rom [ma]) ma)] romFault ∧
        leaShape (.reg .b64 16) ma = true ∧
        Raises [opWriteCheck wit (.reg .b64 16), attempt (destOf wit (nextIp wit [.reg .b64 16, ma]) (.reg .b64 16))] (.exc .und)) ∧
      (movShape rc ra = true ∧ Reads wit n ra 5 ∧ (5 : Word).toNat = (5 : Word).toNat % 2 ^ bitsOf rc ∧ Rejects wit n rc 5 (.exc .und)) ∧
      (isWritable rc = true ∧ (7 : Word).toNat = (getGpr wit 3).toNat % 2 ^ bitsOf rc ∧ Rejects wit (nextIp wit [rc]) rc 7 (.exc .und)) ∧
      (leaShape rc ma = true ∧ Rejects wit m rc (addrOf wit m ma) (.exc .und)) := by
  unfold Rejects Reads
  exact ⟨by decide +kernel, by decide +kernel,
    ⟨by decide +kernel, by decide +kernel, by decide +kernel, by decide +kernel, .reg 128 64, by decide +kernel⟩,
    ⟨by decide +kernel, by decide +kernel, by decide +kernel, .reg 128 64, by decide +kernel⟩,
    by decide +kernel, by decide +kernel, .reg 128 64, by decide +kernel⟩

theorem witness_ExtendAndSwapResult :
    let s := put8 0x5000 0x80 wit
    let m8 : Operand := .ind (.num 0) 0 .b8 4
    (Reads s (nextIp s [ra, m8]) m8 0x80 ∧ Accepts s (nextIp s [ra, m8]) ra (.reg 0 64) 0xffffffffffffff80 ∧
      movsxShape ra m8 = true ∧
      ((0xffffffffffffff80 : Word).toNat : Int) = signedValue (bitsOf m8) 0x80 % (2 ^ bitsOf ra : Int)) ∧
      (Reads s (nextIp s [ra, ma]) ma 0x80 ∧ Accepts s (nextIp s [ra, ma]) ra (.reg 0 64) 0x8000000000000000 ∧
        bswapShape ra ma = true ∧ (0x8000000000000000 : Word).toNat < 2 ^ bitsOf ra ∧
        bytesLE (bitsOf ra / 8) (0x8000000000000000 : Word).toNat = (bytesLE (bitsOf ra / 8) (0x80 : Word).toNat).reverse) := by
  unfold Reads Accepts signedValue
  decide +kernel

theorem witness_ExtendAndSwapResult_faults :
    let n := nextIp far [ra, ma]
    let m := nextIp wit [rc, ma]
    (movsxShape ra ma = true ∧ bswapShape ra ma = true ∧
      Raises [opWriteCheck far ra, opReadCheck far ma, attempt (loadOp far n ma), attempt (destOf far n ra)] (farFault 0)) ∧
      (movsxShape rc ma = true ∧ Reads wit m ma 5 ∧ ((5 : Word).toNat : Int) = signedValue (bitsOf ma) 5 % (2 ^ bitsOf rc : Int) ∧
        Rejects wit m rc 5 (.exc .und)) ∧
      (bswapShape rc ma = true ∧ (0x500000000000000 : Word).toNat < 2 ^ bitsOf rc ∧
        bytesLE (bitsOf rc / 8) (0x500000000000000 : Word).toNat = (bytesLE (bitsOf rc / 8) (5 : Word).toNat).reverse ∧
        Rejects wit m rc 0x500000000000000 (.exc .und)) := by
  unfold Rejects Reads signedValue
  exact ⟨by decide +kernel,
    ⟨by decide +kernel, by decide +kernel, by decide +kernel, by decide +kernel, .reg 128 64, by decide +kernel⟩,
    by decide +kernel, by decide +kernel, by decide +kernel, by decide +kernel, .reg 128 64, by decide +kernel⟩

theorem witness_PushPopResult :
    (translateAll wit wit.xm .write (getGpr wit 7 - 8) 8 = .ok (span 0x7ff8 8) ∧ Reads wit (nextIp wit [ma]) ma 5) ∧
      (memRead wit (getGpr wit 7) 8 = .ok 0 ∧ popShape ma = true ∧ ma ≠ .reg .b64 17 ∧ ma ≠ .reg .b64 7 ∧
        Accepts wit (nextIp wit [ma]) ma (.mem (span 0x5000 8)) 0) := by
  unfold Reads Accepts
  decide +kernel

theorem witness_PushPopResult_faults :
    let s := gpr 7 0x100000008 wit
    let v := put8 0x8000 4 wit
    (Raises [opReadCheck s ra, attempt (loadOp s (nextIp s [ra]) ra), attempt (translateAll s s.xm .write (getGpr s 7 - 8) 8)]
        (farFault 1) ∧
      Raises [attempt (translateAll s s.xm .write (getGpr s 7 - 8) 8)] (farFault 1)) ∧
      (popShape ma = true ∧ ma ≠ .reg .b64 17 ∧
        Raises [opWriteCheck far ma, attempt (memRead far (getGpr far 7) 8), attempt (destOf far (nextIp far [ma]) ma)] (farFault 1)) ∧
      Raises [attempt (memRead (gpr 7 0x100000000 wit) (getGpr (gpr 7 0x100000000 wit) 7) 8)] (farFault 0) ∧
      (memRead v (getGpr v 7) 8 = .ok 4 ∧ popShape rc = true ∧ rc ≠ .reg .b64 17 ∧ Rejects v (nextIp v [rc]) rc 4 (.exc .und)) := by
  unfold Rejects
  exact ⟨by decide +kernel, by decide +kernel, by decide +kernel, by decide +kernel, by decide +kernel, by decide +kernel,
    by decide +kernel, .reg 128 64, by decide +kernel⟩

theorem witness_BulkStore :
    ((gprImage wit).length = 128 ∧ (∀ i : Fin 16, slotOf (gprImage wit) i.val = wit.gpr[i]) ∧ isMem ma = true ∧
      translateAll wit wit.xm .write (addrOf wit (nextIp wit [ma]) ma) 128 = .ok (span 0x5000 128) ∧
      translateAll wit wit.xm .write (getGpr wit 7 - 128) 128 = .ok (span 0x7f80 128)) ∧
      (let image := programImage wit (nextIp wit [ma])
       image.length = 256 ∧ (∀ i : Fin 16, slotOf image i.val = wit.gpr[i]) ∧ slotOf image 16 = nextIp wit [ma] ∧
         slotOf image 17 = wit.flags ∧ slotOf image 18 = wit.mode ∧ (∀ i < 32, 19 ≤ i → slotOf image i = 0)) ∧
      translateAll wit wit.xm .write (addrOf wit (nextIp wit [ma]) ma) 256 = .ok (span 0x5000 256) ∧
      (let image := programImage wit (wit.ip + 2)
       image.length = 256 ∧ (∀ i : Fin 16, slotOf image i.val = wit.gpr[i]) ∧ slotOf image 16 = wit.ip + 2 ∧
         slotOf image 17 = wit.flags ∧ slotOf image 18 = wit.mode ∧ (∀ i < 32, 19 ≤ i → slotOf image i = 0)) ∧
      translateAll wit wit.xm .write (getGpr wit 7 - 256) 256 = .ok (span 0x7f00 256) := by decide +kernel

theorem witness_BulkRestore :
    let bad := put8 0x50f8 1 wit
    (memBytes wit (addrOf wit (nextIp wit [ma]) ma) 128 = .ok (wit.mem.readBytes (span 0x5000 128)) ∧ isMem ma = true) ∧
      memBytes wit (getGpr wit 7) 128 = .ok (wit.mem.readBytes (span 0x8000 128)) ∧
      (memBytes bad (addrOf bad (nextIp bad [ma]) ma) 256 = .ok (bad.mem.readBytes (span 0x5000 256)) ∧
        ∃ i, 19 ≤ i ∧ i < 32 ∧ slotOf (bad.mem.readBytes (span 0x5000 256)) i ≠ 0) ∧
      (memBytes wit (getGpr wit 7) 256 = .ok (wit.mem.readBytes (span 0x8000 256)) ∧
        (∀ i < 32, 19 ≤ i → slotOf (wit.mem.readBytes (span 0x8000 256)) i = 0) ∧
        modeCheck wit (slotOf (wit.mem.readBytes (span 0x8000 256)) 18) = .ok ()) :=
  ⟨by decide +kernel, by decide +kernel, ⟨by decide +kernel, 31, by decide +kernel⟩, by decide +kernel⟩

/-- The images whose `mode` the program-register forms refuse. -/
theorem witness_BulkRestore_mode :
    let a := put8 0x5090 0x100000000 wit
    let b := put8 0x8090 0x200000000 wit
    (memBytes a (addrOf a (nextIp a [ma]) ma) 256 = .ok (a.mem.readBytes (span 0x5000 256)) ∧ isMem ma = true ∧
      modeCheck a (slotOf (a.mem.readBytes (span 0x5000 256)) 18) = .error (.exc .prot)) ∧
      (memBytes b (getGpr b 7) 256 = .ok (b.mem.readBytes (span 0x8000 256)) ∧
        modeCheck b (slotOf (b.mem.readBytes (span 0x8000 256)) 18) = .error (.exc .prot)) := by decide +kernel

theorem witness_Bulk_faults :
    let lo := gpr 7 0x100000080 wit
    let hi := gpr 7 0x100000100 wit
    let up := gpr 7 0x100000000 wit
    let n := nextIp far [ma]
    (isMem ma = true ∧ ∀ k ∈ [128, 256],
      translateAll far far.xm .write (addrOf far n ma) k = .error (farFault 1) ∧ memBytes far (addrOf far n ma) k = .error (farFault 0) ∧
        memBytes up (getGpr up 7) k = .error (farFault 0)) ∧
      translateAll lo lo.xm .write (getGpr lo 7 - 128) 128 = .error (farFault 1) ∧
      translateAll hi hi.xm .write (getGpr hi 7 - 256) 256 = .error (farFault 1) := by decide +kernel

theorem witness_BlockResult :
    memRead wit (getGpr wit 4) Size.b64.bytes = .ok 5 ∧ memRead wit (getGpr wit 5) Size.b64.bytes = .ok 0 ∧
      translateAll wit wit.xm .write (getGpr wit 5) Size.b64.bytes = .ok (span 0x6000 8) ∧
      (5 : Word).toNat = (getGpr wit 0).toNat % 2 ^ (8 * Size.b64.bytes) ∧ AluOp.sub.ResultIs (8 * Size.b64.bytes) 5 0 5 := by
  unfold AluOp.ResultIs
  decide +kernel

theorem witness_RepeatIteration :
    memRead wit (getGpr wit 4) Size.b8.bytes = .ok 5 ∧ memRead wit (getGpr wit 5) Size.b8.bytes = .ok 0 ∧
      translateAll wit wit.xm .write (getGpr wit 5) Size.b8.bytes = .ok [0x6000] ∧
      wit.cfg.repbcZeroEntry = .onceAndWrap ∧ getGpr (gpr 1 1 wit) 1 ≠ 0 ∧
      (memRead witAlt (getGpr witAlt 4) Size.b64.bytes = .ok 5 ∧ memRead witAlt (getGpr witAlt 5) Size.b64.bytes = .ok 0 ∧
        translateAll witAlt witAlt.xm .write (getGpr witAlt 5) Size.b64.bytes = .ok (span 0x6000 8) ∧ getGpr witAlt 1 = 0 ∧
        witAlt.cfg.repbcZeroEntry = .skip) := by decide +kernel

theorem witness_Block_faults :
    let s := gpr 5 0x100000000 wit
    attempt (memRead far (getGpr far 4) Size.b8.bytes) = .error (farFault 0) ∧
      (attempt (memRead s (getGpr s 4) Size.b8.bytes) = .ok () ∧ attempt (memRead s (getGpr s 5) Size.b8.bytes) = .error (farFault 0) ∧
        attempt (translateAll s s.xm .write (getGpr s 5) Size.b8.bytes) = .error (farFault 1)) ∧
      s.cfg.repbcZeroEntry = .onceAndWrap := by decide +kernel

theorem witness_ShiftIsIteration :
    8 ∈ [8, 16, 32, 64] ∧ (0xff : Word).toNat < 2 ^ 8 ∧ 64 ∈ [8, 16, 32, 64] ∧ m64.toNat < 2 ^ 64 := by decide

theorem witness_ShiftResult :
    let r := ShiftOp.lsh.iterate (bitsOf ra) (wit.flags.getLsbD 0) (5 : Word).toNat 5
    (aluShape true ma ra = true ∧ Reads wit (nextIp wit [ma, ra]) ma 5 ∧ Reads wit (nextIp wit [ma, ra]) ra 5 ∧
      Accepts wit (nextIp wit [ma, ra]) ma (.mem (span 0x5000 8)) r.value) ∧
      (Reads wit (nextIp wit [ma]) ma 5 ∧ (7 : Word).toNat = (getGpr wit 3).toNat % 2 ^ (if isImm ma then 64 else bitsOf ma)) := by
  unfold Reads Accepts
  decide +kernel

theorem witness_ShiftResult_faults :
    let i : Operand := .short false 1
    let n := nextIp ctl [rc, i]
    let m := nextIp rom [ma, i]
    (aluShape false ma i = true ∧ Raises [opUpdateCheck rom ma, opReadCheck rom i, attempt (loadOp rom m ma), attempt (loadOp rom m i),
        attempt (destOf rom m ma)] romFault) ∧
      (aluShape false rc i = true ∧ Reads ctl n rc 2 ∧ Reads ctl n i 1 ∧
        Rejects ctl n rc (ShiftOp.lsh.iterate (bitsOf rc) (ctl.flags.getLsbD 0) (1 : Word).toNat 2).value (.exc .und)) ∧
      Raises [opReadCheck far ma, attempt (loadOp far (nextIp far [ma]) ma)] (farFault 0) := by
  unfold Rejects Reads
  exact ⟨by decide +kernel, ⟨by decide +kernel, by decide +kernel, by decide +kernel, by decide +kernel, .reg 128 64, by decide +kernel⟩,
    by decide +kernel⟩

theorem witness_UnaryResult :
    unaryShape true ma = true ∧ Reads wit (nextIp wit [ma]) ma 5 ∧
      (Accepts wit (nextIp wit [ma]) ma (.mem (span 0x5000 8)) (~~~5) ∧ (~~~5 : Word).toNat = 2 ^ bitsOf ma - 1 - (5 : Word).toNat) ∧
      (Accepts wit (nextIp wit [ma]) ma (.mem (span 0x5000 8)) (-5) ∧
        (-5 : Word).toNat = (2 ^ bitsOf ma - (5 : Word).toNat) % 2 ^ bitsOf ma) := by
  unfold Reads Accepts
  decide +kernel

theorem witness_UnaryResult_faults :
    let n := nextIp ctl [rc]
    (unaryShape true ma = true ∧ Raises [opUpdateCheck rom ma, attempt (loadOp rom (nextIp rom [ma]) ma),
        attempt (destOf rom (nextIp rom [ma]) ma)] romFault) ∧
      (unaryShape false rc = true ∧ Reads ctl n rc 2 ∧ (~~~2 : Word).toNat = 2 ^ bitsOf rc - 1 - (2 : Word).toNat ∧
        (-2 : Word).toNat = (2 ^ bitsOf rc - (2 : Word).toNat) % 2 ^ bitsOf rc) ∧
      Rejects ctl n rc (~~~2) (.exc .und) ∧ Rejects ctl n rc (-2) (.exc .und) := by
  unfold Rejects Reads
  exact ⟨by decide +kernel, by decide +kernel, ⟨by decide +kernel, .reg 128 64, by decide +kernel⟩,
    by decide +kernel, .reg 128 64, by decide +kernel⟩

theorem witness_CompareResult :
    (cmpShape ma ra = true ∧ Reads wit (nextIp wit [ma, ra]) ma 5 ∧ Reads wit (nextIp wit [ma, ra]) ra 5 ∧
      AluOp.sub.ResultIs (max (bitsOf ma) (bitsOf ra)) 5 5 0) ∧
      (Reads wit (nextIp wit [ma]) ma 5 ∧ (7 : Word).toNat = (getGpr wit 3).toNat % 2 ^ (if isImm ma then 64 else bitsOf ma) ∧
        AluOp.sub.ResultIs (if isImm ma then 64 else bitsOf ma) 7 5 2) := by
  unfold Reads AluOp.ResultIs
  decide +kernel

theorem witness_CompareResult_faults :
    let n := nextIp far [ra, ma]
    (cmpShape ra ma = true ∧
      Raises [opReadCheck far ra, opReadCheck far ma, attempt (loadOp far n ra), attempt (loadOp far n ma)] (farFault 0)) ∧
      Raises [opReadCheck far ma, attempt (loadOp far (nextIp far [ma]) ma)] (farFault 0) ∧
      Raises [opReadCheck wit (.reg .b64 19), attempt (loadOp wit (nextIp wit [.reg .b64 19]) (.reg .b64 19))] (.exc .und) := by
  decide +kernel

theorem witness_ExchangeResult :
    let n := nextIp wit [ra, ma]
    let n3 := nextIp wit [ma, ra, ra]
    let s := gpr 0 6 wit
    let d := Dest.mem (span 0x5000 8)
    (xchgShape ra ma = true ∧ Reads wit n ra 5 ∧ Reads wit n ma 5 ∧ Accepts wit n ra (.reg 0 64) 5 ∧ Accepts wit n ma d 5) ∧
      (xchgShape ma ra = true ∧ Reads wit n3 ma 5 ∧ Reads wit n3 ra 5 ∧ opWriteCheck wit ma = .ok () ∧
        opWriteCheck wit ra = .ok () ∧ destOf wit n3 ma = .ok d ∧ destOf wit n3 ra = .ok (.reg 0 64) ∧
        destCheck wit d 5 = .ok () ∧ destCheck wit (.reg 0 64) 5 = .ok ()) ∧
      (Reads s n3 ma 5 ∧ Reads s n3 ra 6 ∧ (5 : Word) ≠ 6 ∧ destOf s n3 ma = .ok d ∧ destOf s n3 ra = .ok (.reg 0 64) ∧
        destCheck s (.reg 0 64) 5 = .ok ()) := by
  unfold Reads Accepts
  decide +kernel

/-- Operands that cannot be written: a CPUInfo register and read-only memory, in either place; and values that cr0 does not take. -/
theorem witness_ExchangeResult_unwritable :
    let id : Operand := .reg .b64 136
    let two (s : State) (a b : Operand) := let n := nextIp s [a, b]
      [opUpdateCheck s a, opUpdateCheck s b, attempt (loadOp s n a), attempt (loadOp s n b), attempt (destOf s n a), attempt (destOf s n b)]
    let three (s : State) (a b c : Operand) := let n := nextIp s [a, b, c]
      [opUpdateCheck s a, opUpdateCheck s b, opReadCheck s c, attempt (loadOp s n a), attempt (loadOp s n b), attempt (loadOp s n c),
        attempt (destOf s n a), attempt (destOf s n b)]
    (xchgShape id ra = true ∧ Raises (two wit id ra) (.exc .und) ∧ Raises (three wit id ra ra) (.exc .und)) ∧
      (xchgShape ra id = true ∧ Raises (two wit ra id) (.exc .und) ∧ Raises (three wit ra id ra) (.exc .und)) ∧
      (xchgShape ma ra = true ∧ Raises (two rom ma ra) romFault ∧ Raises (three rom ma ra ra) romFault) ∧
      (xchgShape ra ma = true ∧ Raises (two rom ra ma) romFault ∧ Raises (three rom ra ma ra) romFault) := by
  decide +kernel

theorem witness_ExchangeResult_values :
    let n := nextIp wit [rc, ra]
    let n' := nextIp wit [ra, rc]
    let eq := nextIp wit [rc, .reg .b64 1, ra]
    let ne := nextIp wit [ra, rc, ra]
    (xchgShape rc ra = true ∧ Reads wit n rc 0 ∧ Reads wit n ra 5 ∧ Rejects wit n rc 5 (.exc .und) ∧ opWriteCheck wit ra = .ok () ∧
      ∃ db, destOf wit n ra = .ok db) ∧
      (xchgShape ra rc = true ∧ Reads wit n' ra 5 ∧ Reads wit n' rc 0 ∧ Accepts wit n' ra (.reg 0 64) 0 ∧ Rejects wit n' rc 5 (.exc .und)) ∧
      (Reads wit eq rc 0 ∧ Reads wit eq (.reg .b64 1) 0 ∧ Reads wit eq ra 5 ∧ opWriteCheck wit rc = .ok () ∧
        destOf wit eq rc = .ok (.reg 128 64) ∧ destCheck wit (.reg 128 64) 5 = .error (.exc .und)) ∧
      (Reads wit ne ra 5 ∧ Reads wit ne rc 0 ∧ (5 : Word) ≠ 0 ∧ destOf wit ne rc = .ok (.reg 128 64)) := by
  unfold Rejects Reads Accepts
  exact ⟨⟨by decide +kernel, by decide +kernel, by decide +kernel, ⟨by decide +kernel, .reg 128 64, by decide +kernel⟩, by decide +kernel,
      .reg 0 64, by decide +kernel⟩,
    ⟨by decide +kernel, by decide +kernel, by decide +kernel, by decide +kernel, by decide +kernel, .reg 128 64, by decide +kernel⟩,
    by decide +kernel, by decide +kernel⟩

theorem witness_TakenBranch :
    (0x2001 : Word).getLsbD 0 = true ∧ (0x100000000 : Word).getLsbD 0 = false ∧
      translate { wit with wmem := wit.mem, wptl := ptlBits wit.cr0 } false .fetch 0x100000000 = .error (.exc (.pf
        { fcode := 0x100000000, pref := 0, plevel := 0, kind := 2, status := 0x600 })) ∧
      translate { wit with wmem := wit.mem, wptl := ptlBits wit.cr0 } false .fetch 0x2000 = .ok 0x2000 := by decide +kernel

theorem witness_ConditionalBranch :
    condHolds .z wit.flags = false ∧ condHolds .nz wit.flags = true ∧ checkTarget wit wit.xm 0x2000 = .ok () ∧
      checkTarget wit wit.xm 0x2001 = .error (.exc (.xa 0x2001)) := by decide +kernel

theorem witness_JumpsAndCalls :
    checkTarget wit wit.xm 0x2000 = .ok () ∧ checkTarget wit wit.xm (getGpr wit 14) = .ok () ∧
      checkTarget wit wit.xm (getGpr wit 15) = .ok () ∧
      translateAll wit wit.xm .write (getGpr wit 7 - 8) 8 = .ok (span 0x7ff8 8) ∧
      memRead wit (getGpr wit 7) 8 = .ok 0 ∧ checkTarget wit wit.xm 0 = .ok () := by decide +kernel

theorem witness_JumpsAndCalls_faults :
    let s := gpr 7 0x100000008 wit
    let odd := put8 0x8000 0x2001 (gpr 14 0x2001 (gpr 15 0x2001 wit))
    let up := gpr 7 0x100000000 wit
    checkTarget wit wit.xm 0x2001 = .error (.exc (.xa 0x2001)) ∧
      Raises [attempt (translateAll s s.xm .write (getGpr s 7 - 8) 8), checkTarget s s.xm 0x2000] (farFault 1) ∧
      Raises [attempt (translateAll wit wit.xm .write (getGpr wit 7 - 8) 8), checkTarget wit wit.xm (getGpr wit 0)] (.exc (.xa 5)) ∧
      (checkTarget odd odd.xm (getGpr odd 14) = .error (.exc (.xa 0x2001)) ∧ getGpr odd 15 = 0x2001) ∧
      memRead up (getGpr up 7) 8 = .error (farFault 0) ∧
      (memRead odd (getGpr odd 7) 8 = .ok 0x2001 ∧ checkTarget odd odd.xm 0x2001 = .error (.exc (.xa 0x2001))) := by
  decide +kernel

theorem witness_ModeBranches :
    (let s := gpr 0 0x100000000 wit
     modeCheck s (getGpr s 0) = .error (.exc .prot) ∧
       ∀ v : Bool, translateAll s s.xm .write (getGpr s 7 - (if v then 16 else 8)) (if v then 16 else 8) =
         .ok (if v then span 0x7ff0 16 else span 0x7ff8 8)) ∧
      (modeCheck wit (getGpr wit 0) = .ok () ∧ checkTarget wit (modeXM (writtenMode wit (getGpr wit 0))) 0x2000 = .ok () ∧
        ∀ v : Bool, translateAll wit wit.xm .write (getGpr wit 7 - (if v then 16 else 8)) (if v then 16 else 8) =
          .ok (if v then span 0x7ff0 16 else span 0x7ff8 8)) ∧
      (memRead wit (getGpr wit 7) 8 = .ok 0 ∧ memRead wit (getGpr wit 7 + 8) 8 = .ok 0 ∧ modeCheck wit 0 = .ok () ∧
        checkTarget wit (modeXM (writtenMode wit 0)) 0 = .ok ()) ∧
      (let s := put8 0x8008 0x200000000 wit
       memRead s (getGpr s 7) 8 = .ok 0 ∧ memRead s (getGpr s 7 + 8) 8 = .ok 0x200000000 ∧
         modeCheck s 0x200000000 = .error (.exc .prot)) := by decide +kernel

theorem witness_ModeBranches_faults :
    let s := gpr 7 0x100000008 wit
    let odd := put8 0x8000 0x2001 wit
    let up := gpr 7 0x100000000 wit
    Raises [modeCheck wit (getGpr wit 0), checkTarget wit (modeXM (writtenMode wit (getGpr wit 0))) 0x2001] (.exc (.xa 0x2001)) ∧
      Raises [attempt (translateAll s s.xm .write (getGpr s 7 - (if false then 16 else 8)) (if false then 16 else 8)),
        modeCheck s (getGpr s 0), checkTarget s (modeXM (writtenMode s (getGpr s 0))) 0x2000] (farFault 1) ∧
      Raises [attempt (memRead up (getGpr up 7) 8), attempt (memRead up (getGpr up 7 + 8) 8)] (farFault 0) ∧
      (memRead odd (getGpr odd 7) 8 = .ok 0x2001 ∧ memRead odd (getGpr odd 7 + 8) 8 = .ok 0 ∧ modeCheck odd 0 = .ok () ∧
        checkTarget odd (modeXM (writtenMode odd 0)) 0x2001 = .error (.exc (.xa 0x2001))) := by
  decide +kernel

theorem witness_SupervisorEntry :
    let fast : State := { wit with scdp := 0x6000, sccr := 2 }
    let stack : State := { wit with scdp := 0x6000, scsp := 0xa000 }
    let ie : State := { wit with cr0 := 2 }
    let short : State := { table 32 (code []) with cr0 := 2 }
    let far : State := { prog wit with scdp := 0x6000, scsp := 0x100000020 }
    wit.scdp = 0 ∧ (fast.scdp ≠ 0 ∧ fast.sccr.getLsbD 1 = true ∧ checkTarget fast false fast.scdp = .ok ()) ∧
      (stack.scdp ≠ 0 ∧ stack.sccr.getLsbD 1 = false ∧
        translateAll stack false .write ((if stack.scsp = 0 then getGpr stack 7 else stack.scsp) - 32) 32 = .ok (span 0x9fe0 32) ∧
        checkTarget stack false stack.scdp = .ok ()) ∧
      (interruptsOn ie.cr0 = true ∧ ∃ t, enter ie (16 + 15) (ie.ip + 2) ie.flags (getGpr ie 7) = .ok t) ∧
      (interruptsOn short.cr0 = true ∧
        enter short (16 + 0) (short.ip + 2) short.flags (getGpr short 7) = .error .outOfBounds) ∧
      (far.scdp ≠ 0 ∧ far.sccr.getLsbD 1 = false ∧
        translateAll far false .write ((if far.scsp = 0 then getGpr far 7 else far.scsp) - 32) 32 = .error (.exc (.pf
          { fcode := 0x100000000, pref := 0, plevel := 0, kind := 1, status := 0x600 }))) ∧
      (interruptsOn wit.cr0 = false ∧ wit.cfg.intWhenDisabled = .ignored) ∧
      (interruptsOn witAlt.cr0 = false ∧ witAlt.cfg.intWhenDisabled = .prot) :=
  ⟨by decide +kernel, by decide +kernel, by decide +kernel,
    ⟨by decide +kernel, ok_of_isSome _ (by decide +kernel)⟩, by decide +kernel, by decide +kernel, by decide +kernel,
    by decide +kernel⟩

theorem witness_SupervisorEntry_target :
    let fast : State := { wit with scdp := 0x2001, sccr := 2 }
    let stack : State := { wit with scdp := 0x2001 }
    (fast.scdp ≠ 0 ∧ checkTarget fast false fast.scdp = .error (.exc (.xa 0x2001)) ∧ fast.sccr.getLsbD 1 = true) ∧
      (stack.scdp ≠ 0 ∧ checkTarget stack false stack.scdp = .error (.exc (.xa 0x2001)) ∧
        translateAll stack false .write ((if stack.scsp = 0 then getGpr stack 7 else stack.scsp) - 32) 32 = .ok (span 0x7fe0 32)) := by
  decide +kernel

theorem witness_SupervisorReturn :
    let fast : State := gpr 13 0x300000000 { wit with sccr := 2 }
    let bad := put8 0x8008 0x100000000 wit
    (fast.xm = false ∧ fast.sccr.getLsbD 1 = true ∧ modeCheck fast (getGpr fast 13) = .ok () ∧
      checkTarget fast (modeXM (getGpr fast 13)) (getGpr fast 14) = .ok ()) ∧
      (wit.xm = false ∧ memRead wit (getGpr wit 7) 8 = .ok 0 ∧ memRead wit (getGpr wit 7 + 8) 8 = .ok 0 ∧
        memRead wit (getGpr wit 7 + 16) 8 = .ok 0 ∧ memRead wit (getGpr wit 7 + 24) 8 = .ok 0 ∧
        wit.sccr.getLsbD 1 = false ∧ checkTarget wit ((0 : Word).getLsbD 32) 0 = .ok ()) ∧
      (bad.xm = false ∧ memRead bad (getGpr bad 7 + 8) 8 = .ok 0x100000000 ∧
        (0x100000000 : Word).getLsbD 32 ≠ (0x100000000 : Word).getLsbD 33) := by decide +kernel

theorem witness_SupervisorReturn_faults :
    let fast : State := gpr 14 0x2001 { wit with sccr := 2 }
    let odd := put8 0x8000 0x2001 wit
    let up := gpr 7 0x100000000 wit
    (fast.xm = false ∧ fast.sccr.getLsbD 1 = true ∧
      Raises [modeCheck fast (getGpr fast 13), checkTarget fast (modeXM (getGpr fast 13)) (getGpr fast 14)] (.exc (.xa 0x2001))) ∧
      (odd.xm = false ∧ memRead odd (getGpr odd 7) 8 = .ok 0x2001 ∧
        checkTarget odd ((0 : Word).getLsbD 32) 0x2001 = .error (.exc (.xa 0x2001))) ∧
      (up.xm = false ∧ up.sccr.getLsbD 1 = false ∧
        Raises ([0, 8, 16, 24].map fun o => attempt (memRead up (getGpr up 7 + o) 8)) (farFault 0)) := by
  decide +kernel

theorem witness_HaltAndCaches :
    let far := gpr 4 0x100000000 wit
    wit.xm = false ∧ wit.page.extractLsb' 0 12 = 0#12 ∧ ({ wit with page := 1 } : State).page.extractLsb' 0 12 ≠ 0#12 ∧
      isMem ma = true ∧ physInRange wit.cfg (addrOf wit (nextIp wit [ma]) ma) = true ∧
      translate { wit with wmem := wit.mem, wptl := ptlBits wit.cr0 } false .read 0x5000 = .ok 0x5000 ∧
      physInRange far.cfg (addrOf far (nextIp far [ma]) ma) = false ∧ pagingOn far.cr0 = false := by decide +kernel

theorem witness_StoreAllRegisters :
    wit.xm = false ∧ isMem ma = true ∧
      translateAll wit wit.xm .write (addrOf wit (nextIp wit [ma]) ma) 512 = .ok (span 0x5000 512) := by decide +kernel

theorem witness_StoreAndRestoreAll_faults :
    let s := put8 0x5000 0x2001 (put8 0x5080 0x2001 wit)
    let image := s.mem.readBytes (span 0x5000 512)
    (far.xm = false ∧ isMem ma = true ∧ translateAll far far.xm .write (addrOf far (nextIp far [ma]) ma) 512 = .error (farFault 1) ∧
      memBytes far (addrOf far (nextIp far [ma]) ma) 512 = .error (farFault 0)) ∧
      (memBytes s (addrOf s (nextIp s [ma]) ma) 512 = .ok image ∧
        checkTarget (restoreFull s image) (restoreFull s image).xm (slotOf image 16) = .error (.exc (.xa 0x2001))) ∧
      Raises [cr0Check wit 0, sccrCheck wit 1, modeCheck wit 0] (.exc .und) ∧
      Raises [cr0Check wit 0, sccrCheck wit 0, modeCheck wit 0x100000000] (.exc .prot) := by
  decide +kernel

theorem witness_RestoreAllRegisters :
    let s := put8 0x5000 0 wit
    let zeros : List Byte := List.replicate 512 0
    let bad := put8 0x51f8 1 wit
    let pg := put8 0x5100 0x100 wit
    (s.xm = false ∧ isMem ma = true ∧ memBytes s (addrOf s (nextIp s [ma]) ma) 512 = .ok zeros ∧
      (∀ i < 64, slotOf zeros i = 0) ∧ cr0Check s 0 = .ok () ∧ sccrCheck s 0 = .ok () ∧ modeCheck s 0 = .ok () ∧
      checkTarget (restoreFull s zeros) (restoreFull s zeros).xm 0 = .ok ()) ∧
      (memBytes bad (addrOf bad (nextIp bad [ma]) ma) 512 = .ok (bad.mem.readBytes (span 0x5000 512)) ∧
        slotOf (bad.mem.readBytes (span 0x5000 512)) 63 ≠ 0) ∧
      (memBytes pg (addrOf pg (nextIp pg [ma]) ma) 512 = .ok (pg.mem.readBytes (span 0x5000 512)) ∧
        cr0Check pg (slotOf (pg.mem.readBytes (span 0x5000 512)) 32) = .error (.exc .und)) := by decide +kernel

/-- Restored control registers that keep the mapping of the instruction, and ones that do not. -/
theorem witness_RestoreAllRegisters_mapping :
    let s := put8 0x5000 0 wit
    let u := restoreFull s (List.replicate 512 0)
    let on : State := paged 0x20003 (code [])
    let off : State := { on with cr0 := 0, brCr0 := 0 }
    let i : Operand := .mref false (.i32 0x401200) .b64
    let own : State := { on with ip := 0x401000 }
    let zeros : List Byte := List.replicate 512 0
    keepsOwnMapping s u (nextIp s [ma]) = true ∧ (pagingOn s.cr0 = false ∧ pagingOn u.cr0 = false) ∧
      (u.cr0 = s.cr0 ∧ u.page = s.page) ∧ keepsOwnMapping off on (off.ip + 4) = false ∧
      checkTarget on on.xm 0x401234 = .ok () ∧
      (own.xm = false ∧ isMem i = true ∧ memBytes own (addrOf own (nextIp own [i]) i) 512 = .ok zeros ∧
        (cr0Check own 0 = .ok () ∧ sccrCheck own 0 = .ok () ∧ modeCheck own 0 = .ok ()) ∧
        checkTarget (restoreFull own zeros) (restoreFull own zeros).xm 0 = .ok () ∧ pagingOn own.cr0 = true ∧
        own.brCr0 = own.cr0 ∧ own.brPage = own.page ∧ own.brMem = own.mem ∧ pagingOn (restoreFull own zeros).cr0 = false ∧
        mappedTo own own.ip = some 0x20000 ∧ 0x20000 ≠ own.ip.toNat) ∧
      (wit.cfg.msrBehaviour = .refuse ∧ witAlt.cfg.msrBehaviour = .storage ∧ witMachine.cfg.msrBehaviour = .machine) := by
  decide +kernel

theorem witness_InOutResult :
    wit.xm = false ∧ (5 : Word).toNat = (getGpr wit 0).toNat % 2 ^ (8 * Size.b64.bytes) ∧
      ioWrite wit (getGpr wit 2) Size.b64.bytes 5 = .ok wit ∧
      translateAll wit false .write (getGpr wit 5) Size.b64.bytes = .ok (span 0x6000 8) ∧
      memRead wit (getGpr wit 4) Size.b64.bytes = .ok 5 ∧ wit.cfg.repbcZeroEntry = .onceAndWrap ∧
      (witAlt.xm = false ∧ getGpr witAlt 1 = 0 ∧ witAlt.cfg.repbcZeroEntry = .skip) ∧
      ((getGpr wit 2).toNat < 2 ^ 32 ∧ getGpr wit 2 ≠ 0xfe80 ∧
        ¬ (0xff00 ≤ (getGpr wit 2).toNat ∧ (getGpr wit 2).toNat ≤ 0xffff) ∧
        ¬ (0x7f00 ≤ (getGpr wit 2).toNat ∧ (getGpr wit 2).toNat ≤ 0x7f7f)) := by decide +kernel

theorem witness_InOutResult_faults :
    let s := gpr 5 0x100000000 wit
    let d := gpr 2 0xfe80 wit
    (s.xm = false ∧ translateAll s false .write (getGpr s 5) Size.b64.bytes = .error (farFault 1) ∧ s.cfg.repbcZeroEntry = .onceAndWrap) ∧
      (far.xm = false ∧ memRead far (getGpr far 4) Size.b64.bytes = .error (farFault 0)) ∧
      (d.xm = false ∧ memRead d (getGpr d 4) Size.b64.bytes = .ok 5 ∧
        ioWrite d (getGpr d 2) Size.b64.bytes 5 = .error (.stop .cpuCountWrite) ∧
        (5 : Word).toNat = (getGpr d 0).toNat % 2 ^ (8 * Size.b64.bytes)) := by decide +kernel

theorem witness_Devices :
    (wit.cfg.otherCpus < (127 : Fin 128).val ∧ wit.cfg.otherCpus < (1 : Fin 128).val) ∧
      (∀ c ∈ [(1 : Fin 128), 3], 0 < c.val ∧ c.val ≤ witAlt.cfg.otherCpus ∧ witAlt.cecw[c].getLsbD 0 = false) ∧
      (physInRange witAlt.cfg 0xffffffff = true ∧ physInRange witAlt.cfg 0x100000000 = false) ∧
      ((0x4 : Word).getLsbD 0 = false ∧ (0x4 : Word).getLsbD 1 = false ∧ (0x4 : Word).extractLsb' 56 8 = 0#8) ∧
      ((0x2 : Word).getLsbD 0 = false ∧ (0x2 : Word).getLsbD 1 = true) ∧ (0 : Fin 128).val = 0 ∧
      (0xfeff : Word).toNat < 2 ^ 32 ∧ (0x10000 : Word).toNat < 2 ^ 32 ∧ 2 ^ 32 ≤ (0x100000000 : Word).toNat ∧
      (let d : Region := { base := 0x100000000, size := 0x10 }
       witAlt.cfg.ioDevices = [d] ∧ (d.base ≤ (0x100000000 : Word).toNat ∧ (0x100000000 : Word).toNat < d.base + d.size) ∧
         (d.base ≤ (0x10000000f : Word).toNat ∧ (0x10000000f : Word).toNat < d.base + d.size) ∧
         d.base + d.size ≤ (0x100000010 : Word).toNat) := by
  decide +kernel

/-- The query, and the writes that stop: for an enabled inactive CPU 2 and an active CPU 3 beside the disabled CPU 1. -/
theorem witness_Devices_stops :
    let s : State := { witAlt with cecw := (witAlt.cecw.set 2 1).set 3 3 }
    (s.cecw[(1 : Fin 128)].getLsbD 0 = false ∧ (3 : Word).getLsbD 0 = true ∧ (3 : Word).extractLsb' 8 48 = 0#48 ∧
      (3 : Word).extractLsb' 56 8 = 0#8) ∧
      (s.cecw[(2 : Fin 128)].getLsbD 0 = true ∧ ¬ (s.cecw[(2 : Fin 128)].getLsbD 0 = true ∧ s.cecw[(2 : Fin 128)].getLsbD 1 = true) ∧
        (0x0100000000000000 : Word).extractLsb' 56 8 ≠ 0#8 ∧ (0x0100000000000000 : Word).getLsbD 1 = false ∧
        (0x0100000000000000 : Word).getLsbD 0 = false ∧ (0x101 : Word).getLsbD 0 = true ∧ (0x101 : Word).extractLsb' 8 48 ≠ 0#48) ∧
      (s.cecw[(3 : Fin 128)].getLsbD 0 = true ∧ s.cecw[(3 : Fin 128)].getLsbD 1 = true) ∧ (2 : Nat) ≤ s.cfg.otherCpus ∧
      (3 : Nat) ≤ s.cfg.otherCpus ∧ (4 : Nat) ≠ 8 ∧
      (∀ i < 64, physInRange s.cfg (0xffffffc0 + BitVec.ofNat 64 i) = true ∧ present s.cfg (0xffffffc0 + BitVec.ofNat 64 i) = true) ∧
      physInRange s.cfg (0xffffffc1 + BitVec.ofNat 64 63) = false := by decide +kernel

end Sys2Proof.Tests
end

section
/-!
Initialisation: what the machine's parts hold before the first step, and O9.
-/

namespace Sys2Proof.Machine

/-- The memory at initialisation: the boot image, cut off at 64 KiB, then zeros (10 R85, 70 R584). -/
theorem initial_mem_read (p : Params) (boot : List Byte) (a : Nat) :
    (State.initial p boot).mem.read a = (boot.take 0x10000).getD a 0 := by
  simpa [State.initial] using bootMemory_read (boot.take 0x10000) 0 a

/-- Within its 64 KiB a boot image is not cut off. -/
theorem initial_mem_read_image (p : Params) (boot : List Byte) {a : Nat} (h : a ≤ 0xffff) :
    (State.initial p boot).mem.read a = boot.getD a 0 := by
  rw [initial_mem_read, List.getD_eq_getElem?_getD, List.getD_eq_getElem?_getD, List.getElem?_take_of_lt (by omega)]

/-- Beyond 64 KiB all memory is 0. -/
theorem initial_mem_read_beyond (p : Params) (boot : List Byte) {a : Nat} (h : 0xffff < a) :
    (State.initial p boot).mem.read a = 0 := by
  rw [initial_mem_read, List.getD_eq_default]
  rw [List.length_take]
  omega

/-- No Control Word enables a CPU at initialisation (70 R582). -/
theorem initial_cpuEnabled (p : Params) (boot : List Byte) (c : Fin 128) : cpuEnabled (State.initial p boot) c = false := by
  simp [cpuEnabled, State.initial]

/-- Settles O9: every field is the one `State.initial` gives, and memory reads as the boot image. -/
theorem resetState : Obligations.ResetState := by
  refine ⟨fun p boot => ⟨rfl, rfl, ?xm, ?xmm, rfl, rfl, rfl, fun _ => initial_mem_read_image p boot,
    fun _ => initial_mem_read_beyond p boot, rfl, rfl, rfl, rfl, rfl, ?wptl, initial_cpuEnabled p boot, rfl⟩, rfl⟩
  case xm => simp [State.initial, modeXM]
  case xmm => simp [State.initial, modeXMM]
  case wptl => simp [State.initial, ptlBits]

end Sys2Proof.Machine
end

section
/-!
Reading operands: values by form and size, effective addresses, registers by number; O28.
-/

namespace Sys2Proof.Machine

/-! ### Sizes of values -/

/-- The low `d` bits of a value as a number (00 R12). -/
theorem trunc_toNat {d : Nat} (hd : d ≤ 64) (v : Word) : (trunc d v).toNat = v.toNat % 2 ^ d := by
  have h : v.toNat % 2 ^ d < 2 ^ 64 :=
    (Nat.mod_lt _ (Nat.two_pow_pos d)).trans_le (Nat.pow_le_pow_right (by decide) hd)
  rw [trunc, BitVec.toNat_setWidth, BitVec.toNat_setWidth, Nat.mod_eq_of_lt h]

theorem sizeBits_le (sz : Size) : sizeBits sz ≤ 64 := by cases sz <;> decide

/-- `n` bytes are worth less than `256 ^ n`. -/
theorem valueLE_lt (bs : List Byte) : valueLE bs < 256 ^ bs.length := by
  induction bs with
  | nil => simp [valueLE]
  | cons b bs ih =>
    have hb : b.toNat < 256 := b.isLt
    rw [valueLE, List.length_cons, Nat.pow_succ]
    omega

/-- The value of at most 8 bytes of memory is that of the bytes (20 R100). -/
theorem readValue_toNat (m : Memory) {ps : List Nat} (h : ps.length ≤ 8) :
    (m.readValue ps).toNat = valueLE (m.readBytes ps) := by
  have hlt : valueLE (m.readBytes ps) < 2 ^ 64 := by
    have hlen : (m.readBytes ps).length = ps.length := by simp [Memory.readBytes]
    calc valueLE (m.readBytes ps) < 256 ^ ps.length := hlen ▸ valueLE_lt (m.readBytes ps)
      _ ≤ 256 ^ 8 := Nat.pow_le_pow_right (by decide) h
      _ = 2 ^ 64 := by decide
  rw [Memory.readValue, BitVec.toNat_ofNat, Nat.mod_eq_of_lt hlt]

theorem bytes_le (sz : Size) : sz.bytes ≤ 8 := by cases sz <;> decide

/-- A read of `n ≤ 8` bytes gives a value of `n` bytes. -/
theorem memRead_lt {s : State} {va : Word} {n : Nat} {v : Word} (hn : n ≤ 8) (h : memRead s va n = .ok v) :
    v.toNat < 2 ^ (8 * n) := by
  obtain ⟨ps, hps, rfl⟩ := (memRead_ok_iff _ _ _ _).1 h
  have hlen := translateAll_length hps
  have hlt := valueLE_lt (s.mem.readBytes ps)
  rw [readValue_toNat _ (by omega), Nat.pow_mul]
  simpa [Memory.readBytes, hlen] using hlt

/-! ### Operands by form (30 R203) -/

/-- A memory operand is read at its effective address. -/
theorem loadOp_mem {a : Operand} (s : State) (next : Word) (h : isMem a = true) :
    loadOp s next a = memRead s (addrOf s next a) (bitsOf a / 8) := by
  cases a with
  | ind i k sz b => simp [loadOp, bitsOf, sizeBits]
  | mref rel imm sz => simp [loadOp, bitsOf, sizeBits]
  | reg | short | long => simp [isMem] at h

/-- A memory operand has the bits of a whole number of bytes (30 R200). -/
theorem bitsOf_mem {a : Operand} (h : isMem a = true) : ∃ sz : Size, bitsOf a = 8 * sz.bytes := by
  cases a with
  | ind i k sz b => exact ⟨sz, rfl⟩
  | mref rel imm sz => exact ⟨sz, rfl⟩
  | reg | short | long => simp [isMem] at h

/-- An immediate, zero-extended, has the immediate's size. -/
theorem immZext_lt (imm : Imm) : (immZext imm).toNat < 2 ^ (8 * imm.bytes) := by
  cases imm with
  | i16 i => exact (BitVec.toNat_setWidth_of_le (b := i) (w' := 64) (by decide)).trans_lt i.isLt
  | i32 i => exact (BitVec.toNat_setWidth_of_le (b := i) (w' := 64) (by decide)).trans_lt i.isLt
  | i64 i => exact i.isLt

/-- An operand's value has the operand's size (30 R203). -/
theorem loadOp_lt {s : State} {next : Word} {a : Operand} {v : Word} (h : loadOp s next a = .ok v) : v.toNat < 2 ^ bitsOf a := by
  cases a with
  | reg sz r =>
    obtain rfl : _ = v := Except.ok.inj h
    rw [trunc_toNat (sizeBits_le sz)]
    exact Nat.mod_lt _ (Nat.two_pow_pos _)
  | ind i k sz b => exact memRead_lt (bytes_le sz) h
  | mref rel imm sz => exact memRead_lt (bytes_le sz) h
  | short rel i =>
    obtain rfl : _ = v := Except.ok.inj h
    cases rel with
    | true => exact BitVec.isLt _
    | false => exact (BitVec.toNat_setWidth_of_le (b := i) (w' := 64) (by decide)).trans_lt i.isLt
  | long rel imm =>
    obtain rfl : _ = v := Except.ok.inj h
    cases rel with
    | true => exact BitVec.isLt _
    | false => exact immZext_lt imm

/-- What a read of a memory operand gives: the little-endian bytes at its effective address (30 R203). -/
theorem loadOp_mem_bytes {s : State} {next : Word} {a : Operand} {ps : List Nat} (ha : isMem a = true)
    (hps : translateAll s s.xm .read (addrOf s next a) (bitsOf a / 8) = .ok ps) :
    ∃ v, loadOp s next a = .ok v ∧ v.toNat = valueLE (s.mem.readBytes ps) := by
  obtain ⟨sz, hsz⟩ := bitsOf_mem ha
  have hlen := translateAll_length hps
  have hle := bytes_le sz
  refine ⟨s.mem.readValue ps, ?_, readValue_toNat _ (by omega)⟩
  rw [loadOp_mem s next ha, memRead_ok_iff]
  exact ⟨ps, hps, rfl⟩

/-- An immediate relative to `next`, as the rules write it (30 R202, R203). -/
theorem signExtend_add_next {n : Nat} (i : BitVec n) (next : Word) :
    i.signExtend 64 + next = next + BitVec.ofInt 64 i.toInt := BitVec.add_comm _ _

/-- A scaled offset is a product (30 R202). -/
theorem shiftLeft_eq_ofNat (v : Word) (k : Nat) : v <<< k = BitVec.ofNat 64 (v.toNat * 2 ^ k) := by
  apply BitVec.eq_of_toNat_eq
  rw [BitVec.toNat_shiftLeft, BitVec.toNat_ofNat, Nat.shiftLeft_eq]

/-- The effective address of an indirect operand (30 R202). -/
theorem addrOf_ind (s : State) (next : Word) (i : Index) (k : BitVec 3) (sz : Size) (b : BitVec 4) :
    addrOf s next (.ind i k sz b) = getGpr s b + BitVec.ofNat 64 ((indexValue s i).toNat * 2 ^ k.toNat) := by
  rw [addrOf, shiftLeft_eq_ofNat]

/-! ### Registers by number (10 R30) -/

theorem readReg_gpr (s : State) (next : Word) (n : Fin 16) : readReg s next n.val = s.gpr[n] := by
  simp [readReg, getGpr]

/-- A number below `2 ^ n` has no bit from `n` on. -/
theorem testBit_eq_false_of_lt_of_le {v n i : Nat} (hv : v < 2 ^ n) (hi : n ≤ i) : v.testBit i = false :=
  Nat.testBit_lt_two_pow (hv.trans_le (Nat.pow_le_pow_right (by decide) hi))

/-- The bits of `cpuex2` that the model fixes otherwise than by `cpuex2Other` (10 R64). -/
theorem cpuex2Mask_bit (i : Nat) : (0xfd#64).getLsbD i = decide (i = 0 ∨ 2 ≤ i ∧ i ≤ 7) := by
  rcases Nat.lt_or_ge i 8 with hi | hi
  · interval_cases i <;> rfl
  · have hbit : (0xfd#64).getLsbD i = false := testBit_eq_false_of_lt_of_le (n := 8) (by decide) hi
    rw [hbit, eq_comm, decide_eq_false_iff_not]
    omega

/-- PAS in its place (10 R64). -/
theorem pasField_bit (pas : BitVec 3) (i : Nat) :
    (pas.setWidth 64 <<< 2).getLsbD i = (decide (2 ≤ i ∧ i ≤ 4) && pas.getLsbD (i - 2)) := by
  have hhigh (h : 4 < i) : pas.getLsbD (i - 2) = false := BitVec.getLsbD_of_ge _ _ (by omega)
  rw [BitVec.getLsbD_shiftLeft, BitVec.getLsbD_setWidth]
  grind

/-- VAS in its place (10 R64). -/
theorem vasField_bit (vas : Fin 5) (i : Nat) :
    (BitVec.ofNat 64 vas.val <<< 5).getLsbD i = (decide (5 ≤ i ∧ i ≤ 7) && vas.val.testBit (i - 5)) := by
  have hhigh (h : 7 < i) : vas.val.testBit (i - 5) = false := testBit_eq_false_of_lt_of_le (n := 3) (by omega) (by omega)
  rw [BitVec.getLsbD_shiftLeft, BitVec.getLsbD_ofNat]
  grind

/-- `cpuex2` bit by bit: bit 0 is 1, bits 4:2 are PAS, bits 7:5 are VAS (10 R64). -/
theorem cpuex2_bit (cfg : Params) (i : Nat) :
    (cpuex2 cfg).getLsbD i =
      if i = 0 then true
      else if 2 ≤ i ∧ i ≤ 4 then cfg.pas.getLsbD (i - 2)
      else if 5 ≤ i ∧ i ≤ 7 then cfg.vas.val.testBit (i - 5)
      else cfg.cpuex2Other.getLsbD i := by
  have hwidth (h : 64 ≤ i) : cfg.cpuex2Other.getLsbD i = false := BitVec.getLsbD_of_ge _ _ h
  rw [cpuex2, BitVec.getLsbD_or, BitVec.getLsbD_or, BitVec.getLsbD_or, BitVec.getLsbD_and, BitVec.getLsbD_not, cpuex2Mask_bit,
    BitVec.getLsbD_one, pasField_bit, vasField_bit]
  grind

theorem readReg_msr {s : State} (h : s.cfg.msrBehaviour ≠ .machine) (next : Word) (k : Fin 7) :
    readReg s next (148 + k.val) = s.msr[k] := by
  have hk : readReg s next (148 + k.val) = readMsr s k := by
    fin_cases k <;> rfl
  rw [hk, readMsr_plain h]
  rfl

/-- Settles O28: the size by `loadOp_lt`, memory by `loadOp_mem_bytes`, immediates and addresses as sums, registers by their number. -/
theorem readOperand : Obligations.ReadOperand := by
  intro s next
  refine ⟨fun a v h => loadOp_lt h, ?reg, ?short, ?imm16, ?imm32, ?imm64, fun a ps ha hps => loadOp_mem_bytes ha hps, ?indNum,
    ?indGpr, ?ref16, ?ref32, ?ref64, readReg_gpr s next, ?named, cpuex2_bit s.cfg, fun k h => readReg_msr h next k⟩
  case reg => exact fun sz r => ⟨_, rfl, trunc_toNat (sizeBits_le sz) _⟩
  case short => exact fun i => ⟨_, _, rfl, BitVec.toNat_setWidth_of_le (b := i) (w' := 64) (by decide), rfl, signExtend_add_next i next⟩
  case imm16 => exact fun i => ⟨_, _, rfl, BitVec.toNat_setWidth_of_le (b := i) (w' := 64) (by decide), rfl, signExtend_add_next i next⟩
  case imm32 => exact fun i => ⟨_, _, rfl, BitVec.toNat_setWidth_of_le (b := i) (w' := 64) (by decide), rfl, signExtend_add_next i next⟩
  case imm64 => exact fun i => ⟨rfl, congrArg Except.ok (BitVec.add_comm i next)⟩
  case indNum =>
    intro o k sz b
    rw [addrOf_ind, indexValue, BitVec.toNat_setWidth_of_le (by decide)]
  case indGpr => exact fun o k sz b => addrOf_ind s next (.gpr o) k sz b
  case ref16 => exact fun i sz => ⟨(BitVec.ofNat_toNat 64 i).symm, signExtend_add_next i next⟩
  case ref32 => exact fun i sz => ⟨(BitVec.ofNat_toNat 64 i).symm, signExtend_add_next i next⟩
  case ref64 => exact fun i sz => ⟨rfl, BitVec.add_comm i next⟩
  case named =>
    intro p hp
    fin_cases hp <;> rfl

end Sys2Proof.Machine
end

section
/-!
Branches: each instruction by the shared operation that it is, what that operation answers or raises, and O51, O52, O53.
-/

namespace Sys2Proof.Machine

/-! ### From the operation to the instruction -/

section
variable {i : Instr} {s t : State} {r : Except Trap State} {e : Trap}

/-- An instruction that answers a state goes on from it. -/
theorem exec_next_of_ok (hi : exec i s = finish s r) (hr : r = .ok t) : exec i s = .next t := by
  rw [hi, hr, finish_ok]

/-- An instruction whose operation raises a trap is abandoned with it (60 R525, R526). -/
theorem abandons_of_error (hi : exec i s = finish s r) (hr : r = .error e) : Abandons i s e := by
  rw [abandons_iff, hi, hr]

end

theorem exec_jcc16 (cc : Cond) (rel : Bool) (w : BitVec 4) (imm : BitVec 16) (s : State) :
    exec (jcc16 cc rel w imm) s = finish s (condState cc rel (.i16 imm) s) := by
  cases cc <;> rfl

theorem exec_jcc32 (cc : Cond) (rel : Bool) (w : BitVec 4) (imm : BitVec 32) (s : State) :
    exec (jcc32 cc rel w imm) s = finish s (condState cc rel (.i32 imm) s) := by
  cases cc <;> rfl

theorem exec_jcc64 (cc : Cond) (rel : Bool) (w : BitVec 4) (imm : BitVec 64) (s : State) :
    exec (jcc64 cc rel w imm) s = finish s (condState cc rel (.i64 imm) s) := by
  cases cc <;> rfl

theorem exec_jmp (rel : Bool) (imm : Imm) (s : State) :
    exec (.jmp rel imm) s = finish s (jumpState (immTarget rel imm (nextImm s imm)) s) := rfl

theorem exec_call (rel : Bool) (imm : Imm) (s : State) :
    exec (.call rel imm) s = finish s (callState (immTarget rel imm (nextImm s imm)) (nextImm s imm) s) := rfl

theorem exec_fcall (rel : Bool) (imm : Imm) (s : State) :
    exec (.fcall rel imm) s = finish s (fastCallState (immTarget rel imm (nextImm s imm)) (nextImm s imm) s) := rfl

theorem exec_ret (s : State) : exec .ret s = finish s (retState s) := rfl

theorem exec_ijmp (rel : Bool) (r : BitVec 4) (s : State) :
    exec (.ijmp rel r) s = finish s (jumpState (regTarget rel (getGpr s r) (nextAfter s 2)) s) := rfl

theorem exec_fret (rel : Bool) (s : State) :
    exec (.fret rel) s = finish s (jumpState (regTarget rel (getGpr s 14) (nextAfter s 2)) s) := rfl

theorem exec_ifjmp (rel : Bool) (s : State) :
    exec (.ifjmp rel) s = finish s (jumpState (regTarget rel (getGpr s 15) (nextAfter s 2)) s) := rfl

theorem exec_icall (rel : Bool) (r : BitVec 4) (s : State) :
    exec (.icall rel r) s = finish s (callState (regTarget rel (getGpr s r) (nextAfter s 2)) (nextAfter s 2) s) := rfl

theorem exec_ifcall (rel : Bool) (s : State) :
    exec (.ifcall rel) s = finish s (fastCallState (regTarget rel (getGpr s 15) (nextAfter s 2)) (nextAfter s 2) s) := rfl

theorem exec_jsm (rel : Bool) (imm : Imm) (s : State) : exec (.jsm rel imm) s = finish s (jsmState rel imm s) := rfl

theorem exec_callsm (rel v : Bool) (imm : Imm) (s : State) :
    exec (.callsm rel v imm) s = finish s (callsmState rel v imm s) := rfl

theorem exec_retrsm (s : State) : exec .retrsm s = finish s (retrsmState s) := rfl

/-! ### A sequence of checks -/

/-- The last check raises its own trap. -/
theorem raises_singleton {c : Except Trap Unit} {t : Trap} : Raises [c] t ↔ c = .error t := by
  simp [raises_cons, raises_nil]

/-- `raises_bind` for a check that answers nothing. -/
theorem raises_bind_check {β : Type} {c : Except Trap Unit} {f : Unit → Except Trap β} {cs : List (Except Trap Unit)} {t : Trap}
    (h : Raises (c :: cs) t) (hf : Raises cs t → f () = .error t) : (c >>= f) = .error t := by
  rcases (raises_cons _ _ _).1 h with rfl | ⟨rfl, hcs⟩
  · rfl
  · exact hf hcs

/-! ### What the shared operations answer, and what they raise -/

section
variable {s : State} {t next : Word} {e : Trap}

theorem jumpState_of_ok (h : checkTarget s s.xm t = .ok ()) : jumpState t s = .ok (branchTo s t) :=
  (jumpState_ok_iff _ _ _).2 ⟨h, rfl⟩

theorem jumpState_of_error (h : checkTarget s s.xm t = .error e) : jumpState t s = .error e := by
  rw [jumpState, h, bind_error]

theorem condState_of_not {cc : Cond} {rel : Bool} {imm : Imm} (h : condHolds cc s.flags = false) :
    condState cc rel imm s = .ok { s with ip := nextImm s imm } := by
  simp [condState, h]

theorem condState_of_holds {cc : Cond} {rel : Bool} {imm : Imm} (h : condHolds cc s.flags = true) :
    condState cc rel imm s = jumpState (immTarget rel imm (nextImm s imm)) s := by
  simp [condState, h]

theorem fastCallState_of_ok (h : checkTarget s s.xm t = .ok ()) :
    fastCallState t next s = .ok (branchTo (setGpr s 14 next) t) := by
  rw [fastCallState, h, bind_ok]

theorem fastCallState_of_error (h : checkTarget s s.xm t = .error e) : fastCallState t next s = .error e := by
  rw [fastCallState, h, bind_error]

theorem callState_of_ok {ps : List Nat} (hp : translateAll s s.xm .write (getGpr s 7 - 8) 8 = .ok ps)
    (h : checkTarget s s.xm t = .ok ()) : callState t next s = .ok (branchTo (pushAt s ps next) t) := by
  rw [callState, pushCheck, hp, bind_ok, h, bind_ok]

/-- The store of a call is checked before its target (45 R429). -/
theorem callState_of_raises
    (h : Raises [attempt (translateAll s s.xm .write (getGpr s 7 - 8) 8), checkTarget s s.xm t] e) :
    callState t next s = .error e :=
  raises_bind h fun _ _ h => by rw [raises_singleton.1 h, bind_error]

theorem retState_of_load {v : Word} (h : memRead s (getGpr s 7) 8 = .ok v) :
    retState s = (do checkTarget s s.xm v; .ok (branchTo (setGpr s 7 (getGpr s 7 + 8)) v)) := by
  rw [retState, h, bind_ok]

theorem retState_of_error (h : memRead s (getGpr s 7) 8 = .error e) : retState s = .error e := by
  rw [retState, h, bind_error]

end

/-! ### Conditional branches -/

/-- An instruction that is a conditional branch advances, or goes to its target, or takes the target's exception (45 R420, R421, R426). -/
theorem exec_cond_branch {i : Instr} {cc : Cond} {rel : Bool} {imm : Imm} {s : State} (hi : exec i s = finish s (condState cc rel imm s)) :
    (condHolds cc s.flags = false → exec i s = .next { s with ip := nextImm s imm }) ∧
      (condHolds cc s.flags = true →
        (checkTarget s s.xm (immTarget rel imm (nextImm s imm)) = .ok () →
          exec i s = .next (branchTo s (immTarget rel imm (nextImm s imm)))) ∧
        (∀ e, checkTarget s s.xm (immTarget rel imm (nextImm s imm)) = .error (.exc e) →
          exec i s = .next (takeException s e))) := by
  refine ⟨fun h => exec_next_of_ok hi (condState_of_not h), fun h => ?_⟩
  rw [condState_of_holds h] at hi
  refine ⟨fun ht => exec_next_of_ok hi (jumpState_of_ok ht), fun e he => ?_⟩
  rw [hi, jumpState_of_error he, finish_exc]

/-- Settles O51: the three widths are one operation, and the names are those of the codes. -/
theorem conditionalBranch : Obligations.ConditionalBranch := by
  refine ⟨fun s cc rel w i j k p hp => ?_, fun rel w i j k => ⟨rfl, rfl, rfl⟩⟩
  simp only [List.mem_cons, List.not_mem_nil, or_false] at hp
  rcases hp with rfl | rfl | rfl
  · exact exec_cond_branch (exec_jcc16 cc rel w i s)
  · exact exec_cond_branch (exec_jcc32 cc rel w j s)
  · exact exec_cond_branch (exec_jcc64 cc rel w k s)

/-! ### Jumps, calls and returns -/

/-- Settles O52: each instruction is a jump, a call, a fast call or `ret`, and answers or raises what that operation does. -/
theorem jumpsAndCalls : Obligations.JumpsAndCalls := by
  intro s rel imm r next t dest
  refine ⟨fun ht => ⟨?jmp, ?fcall⟩, ?jumps, fun ht => ?ifcall, fun ps hps => ⟨fun ht => ?call, fun ht => ?icall⟩,
    fun v hv ht => ?ret, fun f => ⟨fun ht => ⟨?jmpFault, ?fcallFault⟩, fun h => ?callFault, fun h => ?icallFault, ?jumpFaults,
      fun h => ?retLoadFault, fun v hv ht => ?retFault⟩⟩
  case jmp => exact exec_next_of_ok (exec_jmp rel imm s) (jumpState_of_ok ht)
  case fcall => exact exec_next_of_ok (exec_fcall rel imm s) (fastCallState_of_ok ht)
  case jumps =>
    intro p hp ht
    simp only [List.mem_cons, List.not_mem_nil, or_false] at hp
    rcases hp with rfl | rfl | rfl
    · exact exec_next_of_ok (exec_ijmp rel r s) (jumpState_of_ok ht)
    · exact exec_next_of_ok (exec_fret rel s) (jumpState_of_ok ht)
    · exact exec_next_of_ok (exec_ifjmp rel s) (jumpState_of_ok ht)
  case ifcall => exact exec_next_of_ok (exec_ifcall rel s) (fastCallState_of_ok ht)
  case call => exact exec_next_of_ok (exec_call rel imm s) (callState_of_ok hps ht)
  case icall => exact exec_next_of_ok (exec_icall rel r s) (callState_of_ok hps ht)
  case ret => exact exec_next_of_ok (exec_ret s) (by rw [retState_of_load hv, ht, bind_ok])
  case jmpFault => exact abandons_of_error (exec_jmp rel imm s) (jumpState_of_error ht)
  case fcallFault => exact abandons_of_error (exec_fcall rel imm s) (fastCallState_of_error ht)
  case callFault => exact abandons_of_error (exec_call rel imm s) (callState_of_raises h)
  case icallFault => exact abandons_of_error (exec_icall rel r s) (callState_of_raises h)
  case jumpFaults =>
    intro p hp ht
    simp only [List.mem_cons, List.not_mem_nil, or_false] at hp
    rcases hp with rfl | rfl | rfl | rfl
    · exact abandons_of_error (exec_ijmp rel r s) (jumpState_of_error ht)
    · exact abandons_of_error (exec_fret rel s) (jumpState_of_error ht)
    · exact abandons_of_error (exec_ifjmp rel s) (jumpState_of_error ht)
    · exact abandons_of_error (exec_ifcall rel s) (fastCallState_of_error ht)
  case retLoadFault => exact abandons_of_error (exec_ret s) (retState_of_error h)
  case retFault => exact abandons_of_error (exec_ret s) (by rw [retState_of_load hv, ht, bind_error])

/-! ### The physical addresses of an access -/

/-- A value put together from two others by a mask has under the mask the bits of the second. -/
theorem merge_and_mask (m x y : Word) : ((x &&& ~~~m) ||| (y &&& m)) &&& m = y &&& m := by
  ext i hi
  simp only [BitVec.getElem_and, BitVec.getElem_or, BitVec.getElem_not]
  cases m[i] <;> simp

/-- The low 12 bits of an address are its offset in the page. -/
theorem toNat_and_offset_mask (v : Word) : (v &&& 0xfff#64).toNat = v.toNat % 4096 := by
  simpa using Nat.and_two_pow_sub_one_eq_mod v.toNat 12

/-- The frame that an entry names and the offset of an address make an address with that offset (20 R147). -/
theorem frame_or_offset (e va : Word) : (entryAddress e ||| (va &&& 0xfff#64)).toNat % 4096 = va.toNat % 4096 := by
  rw [← toNat_and_offset_mask, ← toNat_and_offset_mask, entryAddress, merge_and_mask]

/-- A translation keeps the offset in the page (20 R147, R150). -/
theorem translate_offset {s : State} {xm : Bool} {k : Access} {va : Word} {p : Nat} (h : translate s xm k va = .ok p) :
    p % 4096 = va.toNat % 4096 := by
  cases hpg : pagingOn s.cr0 with
  | false =>
    obtain ⟨_, _, rfl⟩ := (translate_physical_ok_iff hpg).1 h
    rfl
  | true =>
    simp only [translate, hpg, if_true, translateVirtual, bind_ok_iff, Except.ok.injEq] at h
    obtain ⟨_, _, _, _, l, _, _, _, _, _, _, _, rfl⟩ := h
    exact frame_or_offset l.entry va

/-- The addresses of an access have the page offsets of its bytes. -/
theorem translateAll_offsets {s : State} {xm : Bool} {k : Access} {n : Nat} : ∀ {va : Word} {ps : List Nat},
    translateAll s xm k va n = .ok ps → ps.map (· % 4096) = (List.range n).map fun i => (va.toNat + i) % 4096 := by
  induction n with
  | zero =>
    intro va ps h
    obtain rfl : [] = ps := by simpa [translateAll] using h
    rfl
  | succ n ih =>
    intro va ps h
    simp only [translateAll, bind_ok_iff, Except.ok.injEq] at h
    obtain ⟨p, hp, qs, hqs, rfl⟩ := h
    rw [List.map_cons, translate_offset hp, ih hqs, List.range_succ_eq_map, List.map_cons, List.map_map]
    congr 1
    refine List.map_congr_left fun i _ => ?_
    have hva : (va + 1).toNat = (va.toNat + 1) % 2 ^ 64 := by simp [BitVec.toNat_add]
    simp only [Function.comp, hva]
    omega

/-- The bytes of an access of up to a page are at distinct addresses (20 R150). -/
theorem translateAll_nodup {s : State} {xm : Bool} {k : Access} {va : Word} {n : Nat} {ps : List Nat} (hn : n ≤ 4096)
    (h : translateAll s xm k va n = .ok ps) : ps.Nodup := by
  apply List.Nodup.of_map (· % 4096)
  rw [translateAll_offsets h]
  refine List.Nodup.map_on (fun i hi j hj hij => ?_) List.nodup_range
  rw [List.mem_range] at hi hj
  omega

/-! ### Branches that write `mode` -/

section
variable {s : State} {m t : Word} {e : Trap}

theorem setModeAndGo_of_ok (hm : modeCheck s m = .ok ()) (ht : checkTarget s (modeXM (writtenMode s m)) t = .ok ()) :
    setModeAndGo s m t = .ok (branchTo { s with mode := writtenMode s m } t) := by
  rw [setModeAndGo, hm, bind_ok, ht, bind_ok]

/-- The value of `mode` is checked before the target (10 R37, 45 R421). -/
theorem setModeAndGo_of_raises (h : Raises [modeCheck s m, checkTarget s (modeXM (writtenMode s m)) t] e) :
    setModeAndGo s m t = .error e :=
  raises_bind_check h fun h => by rw [raises_singleton.1 h, bind_error]

/-- `retrsm` with both words loaded is a write of `mode` and a branch; then `sp` rises past them (45 R442). -/
theorem retrsmState_of_loads (ht : memRead s (getGpr s 7) 8 = .ok t) (hm : memRead s (getGpr s 7 + 8) 8 = .ok m) :
    retrsmState s = (do let u ← setModeAndGo s m t; .ok (setGpr u 7 (getGpr s 7 + 16))) := by
  rw [retrsmState, ht, bind_ok, hm, bind_ok]

theorem retrsmState_of_raises (h : Raises [attempt (memRead s (getGpr s 7) 8), attempt (memRead s (getGpr s 7 + 8) 8)] e) :
    retrsmState s = .error e :=
  raises_bind h fun _ _ h => raises_bind h fun _ _ h => absurd h (raises_nil e)

end

/-- The bytes of the slot that `callsm` pushes (45 R441). -/
theorem callsmFrame_length (v : Bool) (next mode : Word) : (callsmFrame v next mode).length = if v then 16 else 8 := by
  cases v <;> simp [callsmFrame]

/-- Where `callsm` pushes, checked for writing. -/
def callsmSlot (s : State) (v : Bool) : Except Trap (List Nat) :=
  translateAll s s.xm .write (getGpr s 7 - (if v then 16 else 8)) (if v then 16 else 8)

/-- What `callsm` leaves once its checks have passed: the frame stored at `ps`, the new mode, `sp` below the frame, at the target. -/
def callsmDone (s : State) (rel v : Bool) (imm : Imm) (ps : List Nat) : State :=
  branchTo
    (setGpr
      { s with
        mem := s.mem.writeBytes ps (callsmFrame v (nextImm s imm) s.mode)
        mode := writtenMode s (getGpr s 0) }
      7 (getGpr s 7 - (if v then 16 else 8)))
    (immTarget rel imm (nextImm s imm))

/-- `callsm` with the length of its frame worked out. -/
theorem callsmState_eq (s : State) (rel v : Bool) (imm : Imm) :
    callsmState rel v imm s = (do
      let ps ← callsmSlot s v
      modeCheck s (getGpr s 0)
      checkTarget s (modeXM (writtenMode s (getGpr s 0))) (immTarget rel imm (nextImm s imm))
      .ok (callsmDone s rel v imm ps)) := by
  simp only [callsmState, callsmSlot, callsmFrame_length]
  cases v <;> rfl

section
variable {s : State} {rel v : Bool} {imm : Imm} {e : Trap}

theorem callsmState_of_ok {ps : List Nat} (hps : callsmSlot s v = .ok ps) (hm : modeCheck s (getGpr s 0) = .ok ())
    (ht : checkTarget s (modeXM (writtenMode s (getGpr s 0))) (immTarget rel imm (nextImm s imm)) = .ok ()) :
    callsmState rel v imm s = .ok (callsmDone s rel v imm ps) := by
  rw [callsmState_eq, hps, bind_ok, hm, bind_ok, ht, bind_ok]

/-- `callsm` checks its store, then the value of `mode`, then its target (log 5). -/
theorem callsmState_of_raises
    (h : Raises [attempt (callsmSlot s v), modeCheck s (getGpr s 0),
      checkTarget s (modeXM (writtenMode s (getGpr s 0))) (immTarget rel imm (nextImm s imm))] e) :
    callsmState rel v imm s = .error e := by
  rw [callsmState_eq]
  exact raises_bind h fun _ _ h => raises_bind_check h fun h => by rw [raises_singleton.1 h, bind_error]

/-- The frame of `callsm` reads back from its slot, and every other byte is kept. -/
theorem callsmFrame_stored {ps : List Nat} (hps : callsmSlot s v = .ok ps) (next : Word) :
    (s.mem.writeBytes ps (callsmFrame v next s.mode)).readBytes ps = callsmFrame v next s.mode ∧
      ∀ a, a ∉ ps → (s.mem.writeBytes ps (callsmFrame v next s.mode)).read a = s.mem.read a := by
  refine ⟨readBytes_writeBytes_same ps _ _ (translateAll_nodup ?_ hps) ?_, read_writeBytes_other ps _ _⟩
  · split <;> omega
  · rw [callsmFrame_length, translateAll_length hps]

end

/-- Settles O53: `jsm` and `retrsm` by `setModeAndGo`, `callsm` by its three checks and the frame it stores. -/
theorem modeBranches : Obligations.ModeBranches := by
  intro s rel v imm next t
  refine ⟨fun hm => ⟨?jsmProt, fun ps hps => ?callsmProt⟩, fun hm ht => ⟨?jsm, fun ps hps => ?callsm⟩,
    fun u m hu hm => ⟨fun hc => ?retrsmProt, fun hc ht => ?retrsm⟩,
    fun f => ⟨fun h => ?jsmFault, fun h => ?callsmFault, fun h => ?retrsmLoadFault, fun u m hu hm hc ht => ?retrsmFault⟩⟩
  case jsmProt =>
    exact abandons_of_error (e := .exc .prot) (exec_jsm rel imm s) (setModeAndGo_of_raises ((raises_cons _ _ _).2 (.inl hm)))
  case callsmProt =>
    have h := (raises_cons _ [checkTarget s (modeXM (writtenMode s (getGpr s 0))) t] _).2 (.inl hm)
    have h := (raises_cons (attempt (callsmSlot s v)) _ _).2 (.inr ⟨(attempt_ok_iff _).2 ⟨ps, hps⟩, h⟩)
    exact abandons_of_error (e := .exc .prot) (exec_callsm rel v imm s) (callsmState_of_raises h)
  case jsm => exact exec_next_of_ok (exec_jsm rel imm s) (setModeAndGo_of_ok hm ht)
  case callsm =>
    obtain ⟨hframe, hother⟩ := callsmFrame_stored hps next
    exact ⟨_, exec_next_of_ok (exec_callsm rel v imm s) (callsmState_of_ok hps hm ht), hframe, hother⟩
  case retrsmProt =>
    have h := setModeAndGo_of_raises (t := u) ((raises_cons _ _ _).2 (.inl hc))
    exact abandons_of_error (e := .exc .prot) (exec_retrsm s) (by rw [retrsmState_of_loads hu hm, h, bind_error])
  case retrsm =>
    exact exec_next_of_ok (exec_retrsm s) (by rw [retrsmState_of_loads hu hm, setModeAndGo_of_ok hc ht, bind_ok]; rfl)
  case jsmFault => exact abandons_of_error (exec_jsm rel imm s) (setModeAndGo_of_raises h)
  case callsmFault => exact abandons_of_error (exec_callsm rel v imm s) (callsmState_of_raises h)
  case retrsmLoadFault => exact abandons_of_error (exec_retrsm s) (retrsmState_of_raises h)
  case retrsmFault =>
    have h := setModeAndGo_of_raises ((raises_cons _ _ _).2 (.inr ⟨hc, raises_singleton.2 ht⟩))
    exact abandons_of_error (exec_retrsm s) (by rw [retrsmState_of_loads hu hm, h, bind_error])

end Sys2Proof.Machine
end

section
/-!
Bits of values and of `flags`: what setting a bit leaves, what each flag computation keeps, and O25, O29, O30.
-/

namespace Sys2Proof.Machine

/-! ### Single bits -/

/-- A set bit reads back, and the others are kept. -/
theorem setBit_getLsbD (v : Word) {i : Nat} (hi : i < 64) (b : Bool) (j : Nat) :
    (setBit v i b).getLsbD j = if j = i then b else v.getLsbD j := by
  rcases Nat.lt_or_ge j 64 with hj | hj
  · cases b <;> simp [setBit, hj] <;> grind
  · rw [BitVec.getLsbD_of_ge _ _ hj, BitVec.getLsbD_of_ge _ _ hj, if_neg (by omega)]

/-- The flags outside a mask are kept where every bit outside it is. -/
theorem keepsFlags_iff (mask old new : Word) :
    KeepsFlags mask old new ↔ ∀ j, mask.getLsbD j = false → new.getLsbD j = old.getLsbD j := by
  constructor
  · intro h j hj
    rcases Nat.lt_or_ge j 64 with hlt | hge
    · have := congrArg (fun w : Word => w.getLsbD j) h
      simpa only [BitVec.getLsbD_and, BitVec.getLsbD_not, hj, hlt, decide_true, Bool.not_false, Bool.and_true] using this
    · rw [BitVec.getLsbD_of_ge _ _ hge, BitVec.getLsbD_of_ge _ _ hge]
  · intro h
    apply BitVec.eq_of_getLsbD_eq
    intro j hj
    rw [BitVec.getLsbD_and, BitVec.getLsbD_and, BitVec.getLsbD_not]
    cases hm : mask.getLsbD j with
    | true => simp
    | false => rw [h j hm]

theorem KeepsFlags.refl (mask f : Word) : KeepsFlags mask f f := rfl

theorem KeepsFlags.trans {mask f g k : Word} (h : KeepsFlags mask f g) (h' : KeepsFlags mask g k) : KeepsFlags mask f k :=
  Eq.trans h' h

/-- What keeps more keeps less. -/
theorem KeepsFlags.mono {mask mask' f g : Word} (h : KeepsFlags mask f g) (hm : mask ||| mask' = mask') :
    KeepsFlags mask' f g := by
  rw [keepsFlags_iff] at h ⊢
  intro j hj
  refine h j ?_
  rw [← hm, BitVec.getLsbD_or, Bool.or_eq_false_iff] at hj
  exact hj.1

/-- Setting a bit keeps the flags outside a mask with that bit. -/
theorem KeepsFlags.setBit {mask f g : Word} (h : KeepsFlags mask f g) {i : Nat} (hi : i < 64) (hm : mask.getLsbD i = true)
    (b : Bool) : KeepsFlags mask f (setBit g i b) := by
  rw [keepsFlags_iff] at h ⊢
  intro j hj
  rw [setBit_getLsbD g hi, if_neg (by rintro rfl; simp [hm] at hj)]
  exact h j hj

/-! ### The flag computations (10 R46 to R50) -/

section
variable (f r : Word) (d : Nat) (c v : Bool)

theorem setCV_keeps : KeepsFlags 0x05 f (setCV f c v) :=
  ((KeepsFlags.refl _ f).setBit (by decide) (by decide) c).setBit (by decide) (by decide) v

theorem setZN_keeps : KeepsFlags 0x0a f (setZN f r d) :=
  ((KeepsFlags.refl _ f).setBit (by decide) (by decide) _).setBit (by decide) (by decide) _

theorem setZNP_keeps : KeepsFlags 0x1a f (setZNP f r d) :=
  ((setZN_keeps f r d).mono (by decide)).setBit (by decide) (by decide) _

@[simp] theorem flagC_setZN : flagC (setZN f r d) = flagC f := by
  simp (disch := decide) only [flagC, setZN, setBit_getLsbD, if_neg]

@[simp] theorem flagV_setZN : flagV (setZN f r d) = flagV f := by
  simp (disch := decide) only [flagV, setZN, setBit_getLsbD, if_neg]

@[simp] theorem flagC_setCV : flagC (setCV f c v) = c := by
  simp (disch := decide) only [flagC, setCV, setBit_getLsbD, if_pos, if_neg]

@[simp] theorem flagV_setCV : flagV (setCV f c v) = v := by
  simp (disch := decide) only [flagV, setCV, setBit_getLsbD, if_pos, if_neg]

/-- Z of a result, as a number. -/
theorem beq_zero_eq_decide : (r == 0) = decide (r.toNat = 0) := by
  rw [Bool.eq_iff_iff, beq_iff_eq, decide_eq_true_iff, BitVec.toNat_eq]
  rfl

theorem setZN_znOf : ZNOf (setZN f r d) r d := by
  refine ⟨?_, ?_⟩
  · simp (disch := decide) only [flagZ, setZN, setBit_getLsbD, if_pos, if_neg, beq_zero_eq_decide]
  · simp (disch := decide) only [flagN, setZN, setBit_getLsbD, if_pos, msb]

theorem setZNP_znOf : ZNOf (setZNP f r d) r d := by
  obtain ⟨hz, hn⟩ := setZN_znOf f r d
  refine ⟨?_, ?_⟩
  · rwa [flagZ, setZNP, setBit_getLsbD _ (by decide), if_neg (by decide)]
  · rwa [flagN, setZNP, setBit_getLsbD _ (by decide), if_neg (by decide)]

/-- P of a result: whether its number of 1 bits is odd (10 R46). -/
theorem flagP_setZNP :
    flagP (setZNP f r d) = decide (((List.range 64).filter fun i => r.getLsbD i).length % 2 = 1) := by
  rw [flagP, setZNP, setBit_getLsbD _ (by decide), if_pos rfl, popcount, List.countP_eq_length_filter]
  rfl

end

section
variable (op : AluOp) (f : Word) (d : Nat) (a b r : Word)

theorem aluFlags_keeps : KeepsFlags 0x0f f (aluFlags op f d a b r) :=
  ((setCV_keeps f _ _).mono (by decide)).trans ((setZN_keeps _ r d).mono (by decide))

theorem aluFlags_znOf : ZNOf (aluFlags op f d a b r) r d := setZN_znOf _ r d

@[simp] theorem flagC_aluFlags : flagC (aluFlags op f d a b r) = op.carry d a b := by
  rw [aluFlags, flagC_setZN, flagC_setCV]

@[simp] theorem flagV_aluFlags : flagV (aluFlags op f d a b r) = op.overflow d a b r := by
  rw [aluFlags, flagV_setZN, flagV_setCV]

theorem aluFlagsWide_keeps (ctr : Nat) : KeepsFlags 0x0f f (aluFlagsWide op f d a b r ctr) := by
  unfold aluFlagsWide
  split
  · exact aluFlags_keeps op f d a b r
  · exact ((setCV_keeps f _ _).mono (by decide)).trans ((setZN_keeps _ r d).mono (by decide))

end

/-- Settles O30: bitwise operations have no carry and no overflow; Z, N, P and what is kept by the flag computations' own lemmas. -/
theorem logicAndResultFlags : Obligations.LogicAndResultFlags := by
  intro f x y r d _
  refine ⟨fun op hop => ?bitwise, ⟨setZN_znOf f r d, setZN_keeps f r d⟩, setZNP_znOf f r d, setZNP_keeps f r d, flagP_setZNP f r d⟩
  case bitwise =>
    refine ⟨?carry, ?overflow, aluFlags_znOf op f d x y r, aluFlags_keeps op f d x y r⟩
    case carry =>
      rw [flagC_aluFlags]
      fin_cases hop <;> rfl
    case overflow =>
      rw [flagV_aluFlags]
      fin_cases hop <;> rfl

/-! ### The exact signed result (10 R47, R48) -/

/-- The top bit of a `d`-bit value says that it is in the upper half. -/
theorem getLsbD_top {d : Nat} (hd : 0 < d) {v : Word} (hv : v.toNat < 2 ^ d) :
    v.getLsbD (d - 1) = decide (2 ^ (d - 1) ≤ v.toNat) := by
  obtain ⟨e, rfl⟩ : ∃ e, d = e + 1 := ⟨d - 1, by omega⟩
  rw [Nat.add_sub_cancel]
  show v.toNat.testBit e = _
  rw [Nat.testBit_eq_decide_div_mod_eq, decide_eq_decide]
  have hpow : 2 ^ (e + 1) = 2 * 2 ^ e := by rw [Nat.pow_succ, Nat.mul_comm]
  have hdiv : v.toNat / 2 ^ e < 2 := Nat.div_lt_of_lt_mul (by rw [Nat.mul_comm]; omega)
  have hone : 1 ≤ v.toNat / 2 ^ e ↔ 2 ^ e ≤ v.toNat := by
    rw [Nat.le_div_iff_mul_le (Nat.two_pow_pos e), Nat.one_mul]
  rw [← hone]
  generalize v.toNat / 2 ^ e = q at hdiv
  omega

/-- The signed reading of a `d`-bit value subtracts `2 ^ d` in the upper half. -/
theorem signedValue_of_lt {d : Nat} {v : Word} (hv : v.toNat < 2 ^ d) :
    signedValue d v = if v.toNat < 2 ^ (d - 1) then (v.toNat : Int) else (v.toNat : Int) - 2 ^ d := by
  rw [signedValue, Nat.mod_eq_of_lt hv]

/-- V of an addition: the signed sum is out of range. -/
theorem add_overflow_iff {d : Nat} (hd : d ∈ [8, 12, 16, 32, 64]) {x y r : Word} (hx : x.toNat < 2 ^ d) (hy : y.toNat < 2 ^ d)
    (hr : AluOp.add.ResultIs d x y r) :
    AluOp.add.overflow d x y r = true ↔
      signedValue d x + signedValue d y < -(2 ^ (d - 1) : Int) ∨ (2 ^ (d - 1) : Int) ≤ signedValue d x + signedValue d y := by
  have hr' : r.toNat = (x.toNat + y.toNat) % 2 ^ d := hr
  have hpos : 0 < d := by fin_cases hd <;> decide
  have hrlt : r.toNat < 2 ^ d := hr' ▸ Nat.mod_lt _ (Nat.two_pow_pos d)
  rw [signedValue_of_lt hx, signedValue_of_lt hy]
  simp only [AluOp.overflow, msb, getLsbD_top hpos hx, getLsbD_top hpos hy, getLsbD_top hpos hrlt, Bool.and_eq_true, beq_iff_eq,
    bne_iff_ne, ne_eq, decide_eq_decide]
  fin_cases hd <;> simp only [Nat.reducePow, Nat.reduceSub, Int.reducePow] at * <;> split <;> split <;> omega

/-- V of a subtraction: the signed difference is out of range. -/
theorem sub_overflow_iff {d : Nat} (hd : d ∈ [8, 12, 16, 32, 64]) {x y r : Word} (hx : x.toNat < 2 ^ d) (hy : y.toNat < 2 ^ d)
    (hr : AluOp.sub.ResultIs d x y r) :
    AluOp.sub.overflow d x y r = true ↔
      signedValue d x - signedValue d y < -(2 ^ (d - 1) : Int) ∨ (2 ^ (d - 1) : Int) ≤ signedValue d x - signedValue d y := by
  have hr' : (r.toNat : Int) = ((x.toNat : Int) - (y.toNat : Int)) % (2 ^ d : Int) := hr
  have hpos : 0 < d := by fin_cases hd <;> decide
  have hrlt : r.toNat < 2 ^ d := by
    have h := Int.emod_lt_of_pos ((x.toNat : Int) - y.toNat) (show (0 : Int) < 2 ^ d by positivity)
    rw [← hr'] at h
    exact_mod_cast h
  rw [signedValue_of_lt hx, signedValue_of_lt hy]
  simp only [AluOp.overflow, msb, getLsbD_top hpos hx, getLsbD_top hpos hy, getLsbD_top hpos hrlt, Bool.and_eq_true,
    bne_iff_ne, ne_eq, decide_eq_decide]
  fin_cases hd <;> simp only [Nat.reducePow, Nat.reduceSub, Int.reducePow] at * <;> split <;> split <;> omega

/-- Settles O29: the flags by the lemmas of `aluFlags`, V against the signed result by arithmetic at each size. -/
theorem addSubFlags : Obligations.AddSubFlags := by
  refine ⟨fun f x y r d _ _ _ => ?flags, fun f x y r d hd hx hy => ⟨fun hr => ?add, fun hr => ?sub⟩⟩
  case flags =>
    have hc (op : AluOp) := flagC_aluFlags op f d x y r
    have hv (op : AluOp) := flagV_aluFlags op f d x y r
    have hzn (op : AluOp) := aluFlags_znOf op f d x y r
    have hkept (op : AluOp) := aluFlags_keeps op f d x y r
    exact ⟨fun _ => ⟨hc .add, hv .add, hzn .add, hkept .add⟩, fun _ => ⟨hc .sub, hv .sub, hzn .sub, hkept .sub⟩⟩
  case add => rw [flagV_aluFlags]; exact add_overflow_iff hd hx hy hr
  case sub => rw [flagV_aluFlags]; exact sub_overflow_iff hd hx hy hr

/-! ### The explicit write of flags (10 R34) -/

theorem lowFlagsMask_bit (i : Nat) : (0x1f#64).getLsbD i = decide (i < 5) := by
  rcases Nat.lt_or_ge i 5 with hi | hi
  · interval_cases i <;> rfl
  · have hbit : (0x1f#64).getLsbD i = false := testBit_eq_false_of_lt_of_le (n := 5) (by decide) hi
    rw [hbit, eq_comm, decide_eq_false_iff_not]
    omega

theorem keptFlags_bit (s : State) {i : Nat} (hi : i < 64) :
    (keptFlags s).getLsbD i = (decide (5 ≤ i) || (s.xm && s.flprotect.getLsbD i)) := by
  have hhigh : (!decide (i < 5)) = decide (5 ≤ i) := by
    rw [← decide_not, decide_eq_decide, Nat.not_lt]
  rw [keptFlags, BitVec.getLsbD_or, BitVec.getLsbD_not, lowFlagsMask_bit, decide_eq_true hi, Bool.true_and, hhigh]
  cases s.xm <;> simp

/-- `WriteFlags`, bit by bit (10 R34). -/
theorem writtenFlags_bit (s : State) (v : Word) (i : Nat) :
    (writtenFlags s v).getLsbD i =
      if i < 5 ∧ ¬ (s.xm = true ∧ s.flprotect.getLsbD i = true) then v.getLsbD i else s.flags.getLsbD i := by
  rcases Nat.lt_or_ge i 64 with hi | hi
  · rw [writtenFlags, BitVec.getLsbD_or, BitVec.getLsbD_and, BitVec.getLsbD_and, BitVec.getLsbD_not, keptFlags_bit s hi]
    cases s.xm <;> cases s.flprotect.getLsbD i <;> simp [hi] <;> grind
  · rw [if_neg (by omega), BitVec.getLsbD_of_ge _ _ hi, BitVec.getLsbD_of_ge _ _ hi]

theorem writtenFlags_keeps (s : State) (v : Word) : KeepsFlags 0x1f s.flags (writtenFlags s v) := by
  rw [keepsFlags_iff]
  intro j hj
  have hj : ¬ j < 5 := of_decide_eq_false ((lowFlagsMask_bit j).symm.trans hj)
  rw [writtenFlags_bit, if_neg fun h => hj h.1]

/-- Settles O25. -/
theorem writeFlags : Obligations.WriteFlags := writtenFlags_bit

end Sys2Proof.Machine
end

section
/-!
What an instruction keeps when it completes: `Kept` for one that does not write `mode`, `KeptButMode` for one that does, one lemma per
operation, and O13.
-/

namespace Sys2Proof.Machine

/-! ### A step that leaves `mode` alone -/

/-- `t` follows from `s` without a write of `mode`: the invariant is kept, and in program mode the supervisor's state. -/
structure Kept (s t : State) : Prop where
  mode : t.mode = s.mode
  cfg : t.cfg = s.cfg
  inv : Inv s → Inv t
  supervisor : s.xm = true → SameSupervisor s t

theorem SameSupervisor.refl (s : State) : SameSupervisor s s := by simp [SameSupervisor]

theorem SameSupervisor.trans {s t u : State} (h : SameSupervisor s t) (h' : SameSupervisor t u) : SameSupervisor s u := by
  simp_all [SameSupervisor]

theorem Kept.refl (s : State) : Kept s s := ⟨rfl, rfl, id, fun _ => .refl s⟩

theorem Kept.xm {s t : State} (h : Kept s t) : t.xm = s.xm := by rw [State.xm, State.xm, h.mode]

theorem Kept.trans {s t u : State} (h : Kept s t) (h' : Kept t u) : Kept s u :=
  ⟨h'.mode.trans h.mode, h'.cfg.trans h.cfg, h'.inv ∘ h.inv, fun hx => (h.supervisor hx).trans (h'.supervisor (h.xm.trans hx))⟩

/-- Bits 63:5 of `flags` stay 0 where they are kept. -/
theorem flagsLegal_of_keeps {f g : Word} (hf : f.extractLsb' 5 59 = 0#59) (hk : KeepsFlags 0x1f f g) : g.extractLsb' 5 59 = 0#59 := by
  apply BitVec.eq_of_getLsbD_eq
  intro j hj
  have hold := congrArg (fun w : BitVec 59 => w.getLsbD j) hf
  have hbit : (0x1f#64).getLsbD (5 + j) = false := by rw [lowFlagsMask_bit, decide_eq_false_iff_not]; omega
  simp only [BitVec.getLsbD_extractLsb', hj, decide_true, Bool.true_and] at hold ⊢
  rw [(keepsFlags_iff _ _ _).1 hk _ hbit, hold]

section
variable {s x : State} (h : Kept s x)
include h

theorem Kept.withGpr (g : Vector Word 16) : Kept s { x with gpr := g } :=
  ⟨h.mode, h.cfg, fun i => ⟨(h.inv i).memory, (h.inv i).mode, (h.inv i).flags, (h.inv i).cr0, (h.inv i).sccr, (h.inv i).ip⟩,
    h.supervisor⟩

theorem Kept.setGpr (r : BitVec 4) (v : Word) : Kept s (setGpr x r v) := h.withGpr _

theorem Kept.loadGprs (image : List Byte) : Kept s (loadGprs x image) := h.withGpr _

theorem Kept.withHalted (b : Bool) : Kept s { x with halted := b } :=
  ⟨h.mode, h.cfg, fun i => ⟨(h.inv i).memory, (h.inv i).mode, (h.inv i).flags, (h.inv i).cr0, (h.inv i).sccr, (h.inv i).ip⟩,
    h.supervisor⟩

theorem Kept.withIp {n : Word} (hn : IpAligned s → n.getLsbD 0 = false) : Kept s { x with ip := n } :=
  ⟨h.mode, h.cfg, fun i => ⟨(h.inv i).memory, (h.inv i).mode, (h.inv i).flags, (h.inv i).cr0, (h.inv i).sccr, hn i.ip⟩, h.supervisor⟩

theorem Kept.withFlags {f : Word} (hf : KeepsFlags 0x1f s.flags f) : Kept s { x with flags := f } :=
  ⟨h.mode, h.cfg, fun i => ⟨(h.inv i).memory, (h.inv i).mode, flagsLegal_of_keeps i.flags hf, (h.inv i).cr0, (h.inv i).sccr, (h.inv i).ip⟩,
    h.supervisor⟩

theorem Kept.withMem {m : Memory} (hm : x.mem.wf → m.wf) : Kept s { x with mem := m } := by
  refine ⟨h.mode, h.cfg, fun i => ?_, h.supervisor⟩
  obtain ⟨⟨hmem, himem, hwmem, hbrMem⟩, hmode, hflags, hcr0, hsccr, hip⟩ := h.inv i
  exact ⟨⟨hm hmem, himem, hwmem, hbrMem⟩, hmode, hflags, hcr0, hsccr, hip⟩

theorem Kept.withImem {m : Memory} (hm : x.mem.wf → x.imem.wf → m.wf) : Kept s { x with imem := m } := by
  refine ⟨h.mode, h.cfg, fun i => ?_, h.supervisor⟩
  obtain ⟨⟨hmem, himem, hwmem, hbrMem⟩, hmode, hflags, hcr0, hsccr, hip⟩ := h.inv i
  exact ⟨⟨hmem, hm hmem himem, hwmem, hbrMem⟩, hmode, hflags, hcr0, hsccr, hip⟩

theorem Kept.store (ps : List Nat) (bs : List Byte) : Kept s { x with mem := x.mem.writeBytes ps bs } :=
  h.withMem (writeBytes_wf ps _ bs)

theorem Kept.syncCode : Kept s (syncCode x) := h.withImem fun hm _ => hm

theorem Kept.flushPages : Kept s (flushPages x) := by
  refine ⟨h.mode, h.cfg, fun i => ?_, h.supervisor⟩
  obtain ⟨⟨hmem, himem, hwmem, hbrMem⟩, hmode, hflags, hcr0, hsccr, hip⟩ := h.inv i
  exact ⟨⟨hmem, himem, hmem, hbrMem⟩, hmode, hflags, hcr0, hsccr, hip⟩

/-- A branch to a target that has passed its check, which is even (45 R421). -/
theorem Kept.branchTo {t : Word} (ht : t.getLsbD 0 = false) : Kept s (branchTo x t) := by
  refine ⟨h.mode, h.cfg, fun i => ?_, h.supervisor⟩
  obtain ⟨⟨hmem, _, _, _⟩, hmode, hflags, hcr0, hsccr, _⟩ := h.inv i
  exact ⟨⟨hmem, hmem, hmem, hmem⟩, hmode, hflags, hcr0, hsccr, ht⟩

theorem Kept.advance (r : BitVec 4) (n : Nat) : Kept s (advance x r n) := h.setGpr r _

end

/-! ### Writing registers and destinations (10 R69, 30 R206) -/

/-- A legal `sccr` is written a legal value (10 R60). -/
theorem sccr_legal_of_check {s : State} {v : Word} (hs : SccrLegal s) (h : sccrCheck s v = .ok ()) : v &&& ~~~2#64 = 0 := by
  rw [sccrCheck_ok_iff] at h
  have hd : (v ^^^ s.sccr) &&& ~~~2#64 = (v &&& ~~~2#64) ^^^ (s.sccr &&& ~~~2#64) := by
    ext i hi
    simp [Bool.and_xor_distrib_right]
  rw [hd, hs] at h
  simpa using h

/-- A register write in `x` whose checks were made in `s` (10 R39, R69). -/
theorem Kept.putReg {s x : State} (h : Kept s x) {n : Nat} {v : Word} (hw : regWriteCheck s n = .ok ())
    (hv : regValueCheck s n v = .ok ()) : Kept s (putReg x n v) := by
  obtain ⟨fmem, fimem, fflags, fmode, fip, -, -, -, -, -, fbrMem, -, -, fcfg, -, fwmem, -, -, fcr0, fsccr, fcr0', fsccr'⟩ :=
    putReg_frame x n v
  refine ⟨fmode.trans h.mode, fcfg.trans h.cfg, fun i => ?inv, fun hx => ?supervisor⟩
  case supervisor =>
    have hn : n < 16 := (regWriteCheck_ok hw).resolve_right (by simp [hx])
    have hgpr : Machine.putReg x n v = Machine.setGpr x (BitVec.ofNat 4 n) v := if_pos hn
    exact hgpr ▸ (h.setGpr _ v).supervisor hx
  case inv =>
    obtain ⟨⟨hmem, himem, hwmem, hbrMem⟩, hmode, hflags, hcr0, hsccr, hip⟩ := h.inv i
    refine ⟨⟨?_, ?_, ?wmem, ?_⟩, ?_, ?_, ?cr0, ?sccr, ?_⟩
    case wmem => rcases fwmem with e | e <;> rw [e] <;> assumption
    case cr0 =>
      by_cases hn : n = 128
      · rw [Cr0Legal, fcr0' hn, fcfg, h.cfg]
        rw [regValueCheck, if_pos hn] at hv
        exact cr0Check_ok hv
      · rw [Cr0Legal, fcr0 hn, fcfg]
        exact hcr0
    case sccr =>
      by_cases hn : n = 133
      · rw [SccrLegal, fsccr' hn]
        rw [regValueCheck, if_neg (by omega), if_pos hn] at hv
        exact sccr_legal_of_check i.sccr hv
      · rw [SccrLegal, fsccr hn]
        exact hsccr
    all_goals simpa only [ModeLegal, FlagsLegal, IpAligned, fmem, fimem, fbrMem, fmode, fflags, fip]

/-- A write of an operand's destination in `x` whose checks were made in `s` (30 R206 to R209). -/
theorem Kept.putDest {s x : State} (h : Kept s x) {next : Word} {a : Operand} {d : Dest} {v : Word}
    (hw : opWriteCheck s a = .ok ()) (hd : destOf s next a = .ok d) (hc : destCheck s d v = .ok ()) : Kept s (putDest x d v) := by
  rcases destOf_ok hd with ⟨sz, r, rfl, rfl⟩ | ⟨_, ps, rfl, _⟩
  · exact h.putReg hw hc
  · exact h.store ps _

/-! ### The address after an instruction -/

/-- An even number of bytes further an address is as even as it was. -/
theorem nextAfter_even {s : State} (h : IpAligned s) {n : Nat} (hn : n % 2 = 0) : (nextAfter s n).getLsbD 0 = false := by
  have hip : s.ip.toNat % 2 = 0 := by
    have := h
    rw [IpAligned, BitVec.getLsbD, Nat.testBit_zero, decide_eq_false_iff_not] at this
    omega
  rw [BitVec.getLsbD, Nat.testBit_zero, decide_eq_false_iff_not, nextAfter, BitVec.toNat_add, BitVec.toNat_ofNat]
  omega

theorem immBytes_even (imm : Imm) : imm.bytes % 2 = 0 := by cases imm <;> simp [Imm.bytes]

theorem operandLength_even (a : Operand) : operandLength a % 2 = 0 := by
  cases a with
  | reg | ind | short => simp [operandLength]
  | long _ imm | mref _ imm _ =>
    have := immBytes_even imm
    simp only [operandLength]
    omega

theorem operandLengths_even (ops : List Operand) : (ops.map operandLength).sum % 2 = 0 := by
  induction ops with
  | nil => rfl
  | cons a ops ih =>
    have := operandLength_even a
    rw [List.map_cons, List.sum_cons]
    omega

theorem nextIp_even {s : State} (h : IpAligned s) (ops : List Operand) : (nextIp s ops).getLsbD 0 = false :=
  nextAfter_even h (by have := operandLengths_even ops; omega)

theorem nextImm_even {s : State} (h : IpAligned s) (imm : Imm) : (nextImm s imm).getLsbD 0 = false :=
  nextAfter_even h (by have := immBytes_even imm; omega)

theorem checkTarget_even {s : State} {xm : Bool} {t : Word} {u : Unit} (h : checkTarget s xm t = .ok u) : t.getLsbD 0 = false :=
  ((checkTarget_ok_iff _ _ _ _).1 h).1

/-! ### The flags an instruction writes -/

section
variable (f r : Word) (d : Nat)

theorem setZN_keepsUpper : KeepsFlags 0x1f f (setZN f r d) := (setZN_keeps f r d).mono (by decide)

theorem setZNP_keepsUpper : KeepsFlags 0x1f f (setZNP f r d) := (setZNP_keeps f r d).mono (by decide)

theorem setCVZN_keepsUpper (c v : Bool) : KeepsFlags 0x1f f (setZN (setCV f c v) r d) :=
  ((setCV_keeps f c v).mono (by decide)).trans (setZN_keepsUpper _ r d)

theorem aluFlags_keepsUpper (op : AluOp) (a b : Word) : KeepsFlags 0x1f f (aluFlags op f d a b r) :=
  (aluFlags_keeps op f d a b r).mono (by decide)

theorem aluFlagsWide_keepsUpper (op : AluOp) (a b : Word) (ctr : Nat) : KeepsFlags 0x1f f (aluFlagsWide op f d a b r ctr) :=
  (aluFlagsWide_keeps op f d a b r ctr).mono (by decide)

/-- An instruction that leaves the flags alone where its bit `f` is set. -/
theorem KeepsFlags.unless {mask f g : Word} (c : Bool) (h : KeepsFlags mask f g) : KeepsFlags mask f (if c then f else g) := by
  cases c
  · exact h
  · exact .refl mask f

end

/-! ### What an operation answers, if it answers -/

/-- Whatever state the operation answers has the property. -/
def Answers (P : State → Prop) (r : Except Trap State) : Prop := ∀ u, r = .ok u → P u

section
variable {P : State → Prop}

theorem Answers.ok {u : State} (h : P u) : Answers P (.ok u) := by
  intro v hv
  obtain rfl := Except.ok.inj hv
  exact h

theorem Answers.error (t : Trap) : Answers P (.error t) := nofun

/-- For a sequence it is enough that what follows its first part answers so. -/
theorem Answers.bind {α : Type} {r : Except Trap α} {f : α → Except Trap State} (h : ∀ a, r = .ok a → Answers P (f a)) :
    Answers P (r >>= f) := by
  intro u hu
  obtain ⟨a, ha, hf⟩ := (bind_ok_iff _ _ _).1 hu
  exact h a ha u hf

end

/-- Whatever state the operation answers follows without a write of `mode`. -/
abbrev Keeps (s : State) (r : Except Trap State) : Prop := Answers (Kept s) r

/-! ### Operations that keep -/

section
variable (s : State)

theorem aluTwo_keeps (op : AluOp) (l f : Bool) (a b : Operand) : Keeps s (aluTwo op l f a b s) := by
  intro u h
  obtain ⟨_, _, hw, _, x, y, dst, _, _, hd, hc, rfl⟩ := aluTwo_ok h
  exact (((Kept.refl s).putDest hw hd hc).withFlags ((aluFlagsWide_keepsUpper ..).unless f)).withIp fun i => nextIp_even i _

theorem aluGprDst_keeps (op : AluOp) (g : BitVec 4) (a : Operand) : Keeps s (aluGprDst op g a s) := by
  intro u h
  obtain ⟨_, y, _, rfl⟩ := aluGprDst_ok h
  exact (((Kept.refl s).setGpr g _).withFlags (aluFlags_keepsUpper ..)).withIp fun i => nextIp_even i _

theorem aluGprSrc_keeps (op : AluOp) (g : BitVec 4) (a : Operand) : Keeps s (aluGprSrc op g a s) := by
  intro u h
  obtain ⟨_, _, hw, x, dst, _, hd, hc, rfl⟩ := aluGprSrc_ok h
  exact (((Kept.refl s).putDest hw hd hc).withFlags (aluFlags_keepsUpper ..)).withIp fun i => nextIp_even i _

theorem shiftFlags_keepsUpper (d : Nat) (r : Shifted) : KeepsFlags 0x1f s.flags (shiftFlags s d r) := setCVZN_keepsUpper ..

theorem shiftTwo_keeps (op : ShiftOp) (l f : Bool) (a b : Operand) : Keeps s (shiftTwo op l f a b s) := by
  intro u h
  obtain ⟨_, _, hw, _, x, c, dst, _, _, hd, hc, rfl⟩ := shiftTwo_ok h
  exact (((Kept.refl s).putDest hw hd hc).withFlags ((shiftFlags_keepsUpper ..).unless f)).withIp fun i => nextIp_even i _

theorem shiftGpr_keeps (op : ShiftOp) (g : BitVec 4) (a : Operand) : Keeps s (shiftGpr op g a s) := by
  intro u h
  obtain ⟨_, c, _, rfl⟩ := shiftGpr_ok h
  exact (((Kept.refl s).setGpr g _).withFlags (shiftFlags_keepsUpper ..)).withIp fun i => nextIp_even i _

theorem unaryState_keeps (op : UnaryOp) (l f : Bool) (a : Operand) : Keeps s (unaryState op l f a s) := by
  intro u h
  obtain ⟨_, _, hw, x, dst, _, hd, hc, rfl⟩ := unaryState_ok h
  exact (((Kept.refl s).putDest hw hd hc).withFlags ((setZNP_keepsUpper ..).unless f)).withIp fun i => nextIp_even i _

theorem unaryGpr_kept (op : UnaryOp) (g : BitVec 4) : Kept s (unaryGpr op g s) :=
  (((Kept.refl s).setGpr g _).withFlags (setZNP_keepsUpper ..)).withIp fun i => nextAfter_even i rfl

theorem mulDivResult_kept (d : Nat) (f : Bool) (r0 r3 : Word) (c v : Bool) : Kept s (mulDivResult s d f r0 r3 c v) :=
  ((((Kept.refl s).setGpr 0 r0).setGpr 3 r3).withFlags ((setCVZN_keepsUpper ..).unless f)).withIp fun i => nextAfter_even i rfl

theorem divState_keeps (ss : Size) (w f : Bool) : Keeps s (divState ss w f s) := by
  unfold divState
  exact .bind fun _ _ => .ok (mulDivResult_kept ..)

theorem idivState_keeps (ss : Size) (w f : Bool) : Keeps s (idivState ss w f s) := by
  unfold idivState
  exact .bind fun _ _ => .ok (mulDivResult_kept ..)

theorem xchgState_keeps (a b : Operand) : Keeps s (xchgState a b s) := by
  unfold xchgState
  refine .bind fun _ _ => .bind fun _ ha => .bind fun _ hb => .bind fun x _ => .bind fun y _ => .bind fun da hda => .bind fun db hdb =>
    .bind fun _ hca => .bind fun _ hcb => .ok ?_
  have hwa := ((opUpdateCheck_ok_iff _ _ _).1 ha).2
  have hwb := ((opUpdateCheck_ok_iff _ _ _).1 hb).2
  exact (((Kept.refl s).putDest hwa hda hca).putDest hwb hdb hcb).withIp fun i => nextIp_even i _

theorem cmpxchgState_keeps (fail : Bool) (a b c : Operand) : Keeps s (cmpxchgState fail a b c s) := by
  intro u h
  obtain ⟨_, hwa, hwb, x, e, n, da, db, _, _, _, hda, hdb, hc, rfl⟩ := cmpxchgState_ok h
  have hz (q : Bool) : KeepsFlags 0x1f s.flags (setBit s.flags 1 q) := (KeepsFlags.refl _ _).setBit (by decide) (by decide) q
  refine Kept.withIp (Kept.withFlags ?_ (hz _)) fun i => nextIp_even i _
  cases hq : (x == e && !fail) <;> simp only [hq, if_true, if_false, Bool.false_eq_true] at hc ⊢
  · exact (Kept.refl s).putDest hwb hdb hc
  · exact (Kept.refl s).putDest hwa hda hc

theorem skip_kept {n : Nat} (hn : n % 2 = 0) : Kept s (skip s n) := (Kept.refl s).withIp fun i => nextAfter_even i hn

theorem movState_keeps (a b : Operand) : Keeps s (movState a b s) := by
  unfold movState
  refine .bind fun _ _ => .bind fun _ hw => .bind fun _ _ => .bind fun v _ => .bind fun dst hd => .bind fun _ hc => .ok ?_
  exact (((Kept.refl s).putDest hw hd hc).withFlags (setZN_keepsUpper ..)).withIp fun i => nextIp_even i _

theorem leaState_keeps (a b : Operand) : Keeps s (leaState a b s) := by
  unfold leaState
  refine .bind fun _ _ => .bind fun _ hw => .bind fun dst hd => .bind fun _ hc => .ok ?_
  exact ((Kept.refl s).putDest hw hd hc).withIp fun i => nextIp_even i _

theorem movrToGprState_keeps (g : BitVec 4) (a : Operand) : Keeps s (movrToGprState g a s) := by
  unfold movrToGprState
  refine .bind fun _ _ => .bind fun v _ => .ok ?_
  exact (((Kept.refl s).setGpr g _).withFlags (setZN_keepsUpper ..)).withIp fun i => nextIp_even i _

theorem movrFromGprState_keeps (g : BitVec 4) (a : Operand) : Keeps s (movrFromGprState g a s) := by
  unfold movrFromGprState
  refine .bind fun _ _ => .bind fun _ hw => .bind fun dst hd => .bind fun _ hc => .ok ?_
  exact (((Kept.refl s).putDest hw hd hc).withFlags (setZN_keepsUpper ..)).withIp fun i => nextIp_even i _

theorem learState_keeps (g : BitVec 4) (a : Operand) : Keeps s (learState g a s) := by
  unfold learState
  exact .bind fun _ _ => .ok (((Kept.refl s).setGpr g _).withIp fun i => nextIp_even i _)

theorem movsxState_keeps (f : Bool) (a b : Operand) : Keeps s (movsxState f a b s) := by
  unfold movsxState
  refine .bind fun _ _ => .bind fun _ hw => .bind fun _ _ => .bind fun v _ => .bind fun dst hd => .bind fun _ hc => .ok ?_
  exact (((Kept.refl s).putDest hw hd hc).withFlags ((setZN_keepsUpper ..).unless f)).withIp fun i => nextIp_even i _

theorem bswapState_keeps (f : Bool) (a b : Operand) : Keeps s (bswapState f a b s) := by
  unfold bswapState
  refine .bind fun _ _ => .bind fun _ hw => .bind fun _ _ => .bind fun v _ => .bind fun dst hd => .bind fun _ hc => .ok ?_
  exact (((Kept.refl s).putDest hw hd hc).withFlags ((setZN_keepsUpper ..).unless f)).withIp fun i => nextIp_even i _

theorem compareFlags_keepsUpper (f : Word) (d : Nat) (a b : Word) : KeepsFlags 0x1f f (compareFlags f d a b) :=
  aluFlags_keepsUpper ..

theorem cmpState_keeps (a b : Operand) : Keeps s (cmpState a b s) := by
  unfold cmpState
  refine .bind fun _ _ => .bind fun _ _ => .bind fun _ _ => .bind fun x _ => .bind fun y _ => .ok ?_
  exact ((Kept.refl s).withFlags (compareFlags_keepsUpper ..)).withIp fun i => nextIp_even i _

theorem testState_keeps (a b : Operand) : Keeps s (testState a b s) := by
  unfold testState
  refine .bind fun _ _ => .bind fun _ _ => .bind fun _ _ => .bind fun x _ => .bind fun y _ => .ok ?_
  exact ((Kept.refl s).withFlags (setZN_keepsUpper ..)).withIp fun i => nextIp_even i _

theorem cmprState_keeps (g : BitVec 4) (a : Operand) : Keeps s (cmprState g a s) := by
  unfold cmprState
  refine .bind fun _ _ => .bind fun y _ => .ok ?_
  exact ((Kept.refl s).withFlags (compareFlags_keepsUpper ..)).withIp fun i => nextIp_even i _

theorem testrState_keeps (g : BitVec 4) (a : Operand) : Keeps s (testrState g a s) := by
  unfold testrState
  refine .bind fun _ _ => .bind fun y _ => .ok ?_
  exact ((Kept.refl s).withFlags (setZN_keepsUpper ..)).withIp fun i => nextIp_even i _

/-! ### Stack and bulk storage -/

theorem pushAt_kept (ps : List Nat) (v : Word) : Kept s (pushAt s ps v) := ((Kept.refl s).store ps _).setGpr 7 _

theorem pushState_keeps (a : Operand) : Keeps s (pushState a s) := by
  unfold pushState
  exact .bind fun _ _ => .bind fun v _ => .bind fun ps _ => .ok ((pushAt_kept s ps v).withIp fun i => nextIp_even i _)

/-- Popping into anything but `flags` is a write of that operand (41 R296). -/
theorem pop_eq_write {a : Operand} (h : ∀ sz, a ≠ .reg sz 17) (next : Word) :
    popCheck s a = opWriteCheck s a ∧ popDest s next a = destOf s next a := by
  cases a with
  | reg sz r =>
    have hr : r ≠ 17 := fun e => h sz (e ▸ rfl)
    exact ⟨if_neg hr, if_neg hr⟩
  | ind | mref | short | long => exact ⟨rfl, rfl⟩

theorem popDest_kept {next : Word} {a : Operand} {d : Dest} {v : Word} (hw : popCheck s a = .ok ())
    (hd : popDest s next a = .ok d) (hc : destCheck s d v = .ok ()) : Kept s (putDest s d v) := by
  by_cases hflags : ∃ sz, a = .reg sz 17
  · obtain ⟨sz, rfl⟩ := hflags
    obtain rfl : Dest.flags = d := Except.ok.inj hd
    exact (Kept.refl s).withFlags (writtenFlags_keeps s v)
  · obtain ⟨ew, ed⟩ := pop_eq_write s (fun sz e => hflags ⟨sz, e⟩) next
    exact (Kept.refl s).putDest (ew ▸ hw) (ed ▸ hd) hc

theorem popState_keeps (a : Operand) : Keeps s (popState a s) := by
  unfold popState
  refine .bind fun _ _ => .bind fun _ hw => .bind fun v _ => .bind fun dst hd => .bind fun _ hc => .ok (Kept.withIp ?_ fun i => nextIp_even i _)
  have hput := popDest_kept s hw hd hc
  split
  · exact hput
  · exact hput.setGpr 7 _

theorem pushrState_keeps (r : BitVec 4) : Keeps s (pushrState r s) := by
  unfold pushrState
  exact .bind fun ps _ => .ok ((pushAt_kept s ps _).withIp fun i => nextAfter_even i rfl)

theorem poprState_keeps (r : BitVec 4) : Keeps s (poprState r s) := by
  unfold poprState
  exact .bind fun v _ => .ok ((((Kept.refl s).setGpr 7 _).setGpr r v).withIp fun i => nextAfter_even i rfl)

theorem storeImage_keeps (a : Operand) (image : List Byte) : Keeps s (storeImage a image s) := by
  intro u h
  obtain ⟨_, ps, _, rfl⟩ := storeImage_ok h
  exact ((Kept.refl s).store ps image).withIp fun i => nextIp_even i _

theorem pushImage_keeps (image : List Byte) : Keeps s (pushImage image s) := by
  intro u h
  obtain ⟨ps, _, rfl⟩ := pushImage_ok h
  exact (((Kept.refl s).store ps image).setGpr 7 _).withIp fun i => nextAfter_even i rfl

theorem restoreGprs_keeps (base : Word) {next : Word} (hn : IpAligned s → next.getLsbD 0 = false) :
    Keeps s (restoreGprs base next s) := by
  intro u h
  obtain ⟨image, _, rfl⟩ := restoreGprs_ok h
  exact ((Kept.refl s).loadGprs image).withIp hn

theorem rstogprState_keeps (a : Operand) : Keeps s (rstogprState a s) := by
  unfold rstogprState
  exact .bind fun _ _ => restoreGprs_keeps s _ fun i => nextIp_even i _

/-! ### Block operations and devices -/

theorem bcpyOnce_keeps (ss : Size) : Keeps s (bcpyOnce ss s) := by
  unfold bcpyOnce
  refine .bind fun v _ => .bind fun ps _ => .ok ?_
  exact ((((Kept.refl s).store ps _).withFlags (setZN_keepsUpper ..)).advance 4 _).advance 5 _

theorem bstoOnce_keeps (ss : Size) : Keeps s (bstoOnce ss s) := by
  unfold bstoOnce
  exact .bind fun ps _ => .ok ((((Kept.refl s).store ps _).withFlags (setZN_keepsUpper ..)).advance 5 _)

theorem bscaOnce_keeps (ss : Size) : Keeps s (bscaOnce ss s) := by
  unfold bscaOnce
  exact .bind fun v _ => .ok (((Kept.refl s).setGpr 0 v).withFlags (setZN_keepsUpper ..))

theorem bcmpOnce_keeps (ss : Size) : Keeps s (bcmpOnce ss s) := by
  unfold bcmpOnce
  refine .bind fun a _ => .bind fun b _ => .ok ?_
  exact (((Kept.refl s).withFlags (compareFlags_keepsUpper ..)).advance 4 _).advance 5 _

theorem btstOnce_keeps (ss : Size) : Keeps s (btstOnce ss s) := by
  unfold btstOnce
  exact .bind fun a _ => .ok (((Kept.refl s).withFlags (compareFlags_keepsUpper ..)).advance 4 _)

end

/-- A device write keeps memory canonical: only a cpuinfo query stores bytes (60 R570). -/
theorem ioWrite_wf {s t : State} {a : Word} {n : Nat} {v : Word} (h : ioWrite s a n v = .ok t) (hm : s.mem.wf) : t.mem.wf := by
  have hself {u : State} (hu : Except.ok (ε := Trap) s = .ok u) : u.mem.wf := by
    obtain rfl := Except.ok.inj hu
    exact hm
  have hdevice {c : Fin 128} {k : Except Trap State} (hk : k = .ok t → t.mem.wf) (hu : writeCpuDevice s c n k = .ok t) : t.mem.wf := by
    unfold writeCpuDevice at hu
    split at hu
    · split at hu
      · exact hk hu
      · cases hu
    · exact hself hu
  unfold ioWrite at h
  split at h
  · exact hself h
  · cases h
  · refine hdevice (fun hk => ?_) h
    simp only [writeLoadPointer, bind_ok_iff, Except.ok.injEq] at hk
    obtain ⟨_, _, _, _, rfl⟩ := hk
    exact hm
  · refine hdevice (fun hk => ?_) h
    simp only [writeControlWord, bind_ok_iff, Except.ok.injEq] at hk
    obtain ⟨_, _, _, _, _, _, _, _, _, _, rfl⟩ := hk
    exact hm
  · refine hdevice (fun hk => ?_) h
    simp only [writeCpuInfoQuery, bind_ok_iff, Except.ok.injEq] at hk
    obtain ⟨_, _, _, _, rfl⟩ := hk
    exact writeBytes_wf _ _ _ hm
  · exact hself h

end Sys2Proof.Machine
end

section
/-!
The rest of the operations, the instructions by what they leave, and O13.
-/

namespace Sys2Proof.Machine

/-! ### Devices and repeated operations -/

/-- A device write in supervisor mode. -/
theorem ioWrite_keeps {s : State} (hx : s.xm = false) (a : Word) (n : Nat) (v : Word) : Keeps s (ioWrite s a n v) := by
  intro t h
  have hwf := ioWrite_wf h
  have ht := ioWrite_ok h
  rw [ht]
  refine ⟨rfl, rfl, fun i => ?_, fun hp => absurd (hx.symm.trans hp) (by decide)⟩
  obtain ⟨⟨hmem, himem, hwmem, hbrMem⟩, hmode, hflags, hcr0, hsccr, hip⟩ := i
  exact ⟨⟨hwf hmem, himem, hwmem, hbrMem⟩, hmode, hflags, hcr0, hsccr, hip⟩

section
variable (s : State)

theorem inOnce_keeps (ss : Size) : Keeps s (inOnce ss s) := by
  unfold inOnce
  exact .bind fun _ _ => .ok (((Kept.refl s).setGpr 0 _).withFlags (setZNP_keepsUpper ..))

theorem supervisor_of_require {s : State} {t : Trap} {u : Unit} (h : require (!s.xm) t = .ok u) : s.xm = false := by
  simpa [require_ok_iff] using h

theorem outOnce_keeps (ss : Size) : Keeps s (outOnce ss s) := by
  unfold outOnce
  exact .bind fun _ hx => ioWrite_keeps (supervisor_of_require hx) _ _ _

theorem inRepeated_keeps (ss : Size) : Keeps s (inRepeated ss s) := by
  unfold inRepeated
  exact .bind fun ps _ => .ok ((((Kept.refl s).store ps _).withFlags (setZNP_keepsUpper ..)).advance 5 _)

theorem outRepeated_keeps (hx : s.xm = false) (ss : Size) : Keeps s (outRepeated ss s) := by
  unfold outRepeated
  exact .bind fun v _ => .bind fun t ht => .ok ((ioWrite_keeps hx _ _ _ t ht).advance 4 _)

/-- A follower whose own checks have passed (42 R331). -/
theorem followerOnce_keeps {fo : Follower} {u : Unit} (h : followerCheck s fo = .ok u) : Keeps s (followerOnce fo s) := by
  cases fo with
  | bcpy ss => exact bcpyOnce_keeps s ss
  | bsto ss => exact bstoOnce_keeps s ss
  | bsca ss => exact bscaOnce_keeps s ss
  | bcmp ss => exact bcmpOnce_keeps s ss
  | btst ss => exact btstOnce_keeps s ss
  | inp ss => exact inRepeated_keeps s ss
  | outp ss => exact outRepeated_keeps s (supervisor_of_require h) ss
  | invalid w => exact .error _

/-- After an iteration `ip` is at the repeat instruction or past the unit (42 R331). -/
theorem afterIteration_kept {t : State} (h : Kept s t) (stop : Bool) : Kept s (afterIteration s t stop) := by
  refine h.withIp fun i => ?_
  cases stop
  · exact i
  · exact nextAfter_even i rfl

theorem repbiState_keeps (cc : Cond) (fo : Follower) : Keeps s (repbiState cc fo s) := by
  unfold repbiState
  exact .bind fun _ hc => .bind fun t ht => .ok (afterIteration_kept s (followerOnce_keeps s hc t ht) _)

theorem repbcState_keeps (cc : Cond) (fo : Follower) : Keeps s (repbcState cc fo s) := by
  unfold repbcState
  refine .bind fun _ hc => ?_
  split
  · exact .ok ((Kept.refl s).withIp fun i => nextAfter_even i rfl)
  · exact .bind fun t ht => .ok (afterIteration_kept s ((followerOnce_keeps s hc t ht).setGpr 1 _) _)

theorem thenNext_keeps {r : Except Trap State} (h : Keeps s r) : Keeps s (thenNext s r) := by
  unfold thenNext
  exact .bind fun t ht => .ok ((h t ht).withIp fun i => nextAfter_even i rfl)

/-! ### Branches and supervisor instructions -/

theorem jumpState_keeps (t : Word) : Keeps s (jumpState t s) := by
  intro u h
  obtain ⟨hc, rfl⟩ := (jumpState_ok_iff _ _ _).1 h
  exact (Kept.refl s).branchTo (checkTarget_even hc)

theorem condState_keeps (cc : Cond) (rel : Bool) (imm : Imm) : Keeps s (condState cc rel imm s) := by
  intro u h
  rcases condState_ok h with ⟨_, rfl⟩ | ⟨_, hc, rfl⟩
  · exact (Kept.refl s).withIp fun i => nextImm_even i imm
  · exact (Kept.refl s).branchTo (checkTarget_even hc)

theorem callState_keeps (t next : Word) : Keeps s (callState t next s) := by
  intro u h
  obtain ⟨ps, _, hc, rfl⟩ := callState_ok h
  exact (pushAt_kept s ps next).branchTo (checkTarget_even hc)

theorem fastCallState_keeps (t next : Word) : Keeps s (fastCallState t next s) := by
  intro u h
  obtain ⟨hc, rfl⟩ := fastCallState_ok h
  exact ((Kept.refl s).setGpr 14 next).branchTo (checkTarget_even hc)

theorem retState_keeps : Keeps s (retState s) := by
  unfold retState
  exact .bind fun t _ => .bind fun _ hc => .ok (((Kept.refl s).setGpr 7 _).branchTo (checkTarget_even hc))

theorem haltState_keeps : Keeps s (haltState s) := by
  unfold haltState
  exact .bind fun _ _ => .ok (((Kept.refl s).withHalted true).withIp fun i => nextAfter_even i rfl)

theorem pcflState_keeps : Keeps s (pcflState s) := by
  unfold pcflState
  exact .bind fun _ _ => .bind fun _ _ => .ok ((Kept.refl s).flushPages.withIp fun i => nextAfter_even i rfl)

theorem flallState_keeps : Keeps s (flallState s) := by
  unfold flallState
  exact .bind fun _ _ => .ok ((Kept.refl s).flushPages.syncCode.withIp fun i => nextAfter_even i rfl)

theorem dflushState_keeps (a : Operand) : Keeps s (dflushState a s) := by
  unfold dflushState
  exact .bind fun _ _ => .bind fun _ _ => .bind fun _ _ => .ok ((Kept.refl s).withIp fun i => nextIp_even i _)

theorem Kept.refreshByte {s x : State} (h : Kept s x) (p : Nat) : Kept s (refreshByte x p) :=
  h.withImem fun _ hi => write_wf _ _ _ hi

theorem flushCode_kept (a : Word) : Kept s (flushCode s a) := by
  unfold flushCode
  split
  · exact ((Kept.refl s).refreshByte _).refreshByte _
  · exact .refl s

theorem iflushState_keeps (a : Operand) : Keeps s (iflushState a s) := by
  unfold iflushState
  exact .bind fun _ _ => .bind fun _ _ => .bind fun _ _ => .ok ((flushCode_kept s _).withIp fun i => nextIp_even i _)

theorem storegfState_keeps (a : Operand) : Keeps s (storegfState a s) := by
  unfold storegfState
  exact .bind fun _ _ => .bind fun _ _ => .bind fun ps _ => .ok (((Kept.refl s).store ps _).withIp fun i => nextIp_even i _)

theorem Kept.flushIf {s x : State} (h : Kept s x) (c : Bool) : Kept s (if c = true then Machine.syncCode (Machine.flushPages x) else x) := by
  split
  · exact h.flushPages.syncCode
  · exact h

/-! ### What a machine-specific effect leaves (46 R475, log 23) -/

theorem machineRegisters_keeps (l : List (BitVec 8 × Word)) : Keeps s (machineRegisters s l) := by
  induction l generalizing s with
  | nil => exact .ok (.refl s)
  | cons c l ih =>
    obtain ⟨n, v⟩ := c
    unfold machineRegisters
    exact .bind fun _ hw => .bind fun _ hv => fun u hu => ((Kept.refl s).putReg hw hv).trans (ih _ u hu)

theorem machineApply_keeps {next : Word} (hn : IpAligned s → next.getLsbD 0 = false) (e : MachineEffect) :
    Keeps s (machineApply s next e) := by
  intro u h
  obtain ⟨r, hr, h⟩ := machineApply_ok h
  have hregisters : Kept s r := machineRegisters_keeps s _ r hr
  have hflags : Kept s { r with flags := writtenFlags r e.flags } :=
    hregisters.trans ((Kept.refl r).withFlags (writtenFlags_keeps r e.flags))
  have hcaches := ((hflags.withMem (machineStores_wf r.cfg e.stores r.mem)).withHalted e.halts).flushIf e.flushes
  rcases h with ⟨_, rfl⟩ | ⟨t, _, hc, rfl⟩
  · exact hcaches.withIp hn
  · exact hcaches.branchTo (checkTarget_even hc)

theorem machineState_keeps (lo : BitVec 5) (h : BitVec 4) : Keeps s (machineState lo h s) := by
  unfold machineState
  split
  · exact .error _
  · refine .bind fun _ _ => ?_
    split
    · exact machineApply_keeps s (fun i => nextAfter_even i (by omega)) _
    · exact .error _

end

/-! ### The instructions that do not write `mode` -/

theorem finish_kept {s t : State} {r : Except Trap State} (hr : Keeps s r) (h : finish s r = .next t) :
    Kept s t ∨ ∃ e, t = takeException s e := by
  rcases (finish_next_iff _ _ _).1 h with h | ⟨e, _, h⟩
  · exact .inl (hr t h)
  · exact .inr ⟨e, h⟩

/-- An instruction that is not one of those of 10 R36 leaves `mode` alone or takes an exception. -/
theorem exec_kept {i : Instr} {s t : State} (hw : writesMode i = false) (h : exec i s = .next t) :
    Kept s t ∨ ∃ e, t = takeException s e := by
  cases i with
  | jsm | callsm | retrsm | scall | intr | scret | reti | rstoar | popar | rstregf => cases hw
  | und000 _ | undFff _ => exact finish_kept (.error (.exc .und)) h
  | add l f a b | sub l f a b | and l f a b | or l f a b | xor l f a b => exact finish_kept (aluTwo_keeps s _ l f a b) h
  | addrGprDst r a | subrGprDst r a | andrGprDst r a | orrGprDst r a | xorrGprDst r a =>
    exact finish_kept (aluGprDst_keeps s _ r a) h
  | addrGprSrc r a | subrGprSrc r a | andrGprSrc r a | orrGprSrc r a | xorrGprSrc r a =>
    exact finish_kept (aluGprSrc_keeps s _ r a) h
  | lsh l f a b | rsh l f a b | arsh l f a b | lshc l f a b | rshc l f a b | lrot l f a b | rrot l f a b =>
    exact finish_kept (shiftTwo_keeps s _ l f a b) h
  | lshr r a | rshr r a | arshr r a | lshcr r a | rshcr r a | lrotr r a | rrotr r a => exact finish_kept (shiftGpr_keeps s _ r a) h
  | bnot l f a | neg l f a => exact finish_kept (unaryState_keeps s _ l f a) h
  | bnotr r | negr r => exact finish_kept (.ok (unaryGpr_kept s _ r)) h
  | mul ss f | imul ss f => exact finish_kept (.ok (mulDivResult_kept s ..)) h
  | div ss w f => exact finish_kept (divState_keeps s ss w f) h
  | idiv ss w f => exact finish_kept (idivState_keeps s ss w f) h
  | mov a b => exact finish_kept (movState_keeps s a b) h
  | lea a b => exact finish_kept (leaState_keeps s a b) h
  | movrToGpr r a => exact finish_kept (movrToGprState_keeps s r a) h
  | movrFromGpr r a => exact finish_kept (movrFromGprState_keeps s r a) h
  | lear r a => exact finish_kept (learState_keeps s r a) h
  | movsx f a b => exact finish_kept (movsxState_keeps s f a b) h
  | bswap f a b => exact finish_kept (bswapState_keeps s f a b) h
  | cmp a b => exact finish_kept (cmpState_keeps s a b) h
  | test a b => exact finish_kept (testState_keeps s a b) h
  | cmpr r a => exact finish_kept (cmprState_keeps s r a) h
  | testr r a => exact finish_kept (testrState_keeps s r a) h
  | xchg a b => exact finish_kept (xchgState_keeps s a b) h
  | cmpxchg a b c => exact finish_kept (cmpxchgState_keeps s _ a b c) h
  | wcmpxchg a b c => exact finish_kept (cmpxchgState_keeps s _ a b c) h
  | nop0 | fence => exact finish_kept (.ok (skip_kept s rfl)) h
  | nop1 a => exact finish_kept (.ok (skip_kept s (by have := operandLength_even a; omega))) h
  | nop2 a b =>
    exact finish_kept (.ok (skip_kept s (by have := operandLength_even a; have := operandLength_even b; omega))) h
  | nop3 a b c =>
    have ha := operandLength_even a
    have hb := operandLength_even b
    have hc := operandLength_even c
    exact finish_kept (.ok (skip_kept s (by omega))) h
  | push a => exact finish_kept (pushState_keeps s a) h
  | pop a => exact finish_kept (popState_keeps s a) h
  | pushr r => exact finish_kept (pushrState_keeps s r) h
  | popr r => exact finish_kept (poprState_keeps s r) h
  | stogpr a | stoar a => exact finish_kept (storeImage_keeps s a _) h
  | pushgpr | pushar => exact finish_kept (pushImage_keeps s _) h
  | rstogpr a => exact finish_kept (rstogprState_keeps s a) h
  | popgpr => exact finish_kept (restoreGprs_keeps s _ fun i => nextAfter_even i rfl) h
  | bcpy ss => exact finish_kept (thenNext_keeps s (bcpyOnce_keeps s ss)) h
  | bsto ss => exact finish_kept (thenNext_keeps s (bstoOnce_keeps s ss)) h
  | bsca ss => exact finish_kept (thenNext_keeps s (bscaOnce_keeps s ss)) h
  | bcmp ss => exact finish_kept (thenNext_keeps s (bcmpOnce_keeps s ss)) h
  | btst ss => exact finish_kept (thenNext_keeps s (btstOnce_keeps s ss)) h
  | inp ss => exact finish_kept (thenNext_keeps s (inOnce_keeps s ss)) h
  | outp ss => exact finish_kept (thenNext_keeps s (outOnce_keeps s ss)) h
  | repbi cc fo => exact finish_kept (repbiState_keeps s cc fo) h
  | repbc cc fo => exact finish_kept (repbcState_keeps s cc fo) h
  | jp16 rel _ imm | jc16 rel _ imm | jv16 rel _ imm | jz16 rel _ imm | jlt16 rel _ imm | jle16 rel _ imm | jbe16 rel _ imm
  | jmi16 rel _ imm | jpl16 rel _ imm | ja16 rel _ imm | jgt16 rel _ imm | jge16 rel _ imm | jnz16 rel _ imm | jnv16 rel _ imm
  | jnc16 rel _ imm | jnp16 rel _ imm => exact finish_kept (condState_keeps s _ rel (.i16 imm)) h
  | jp32 rel _ imm | jc32 rel _ imm | jv32 rel _ imm | jz32 rel _ imm | jlt32 rel _ imm | jle32 rel _ imm | jbe32 rel _ imm
  | jmi32 rel _ imm | jpl32 rel _ imm | ja32 rel _ imm | jgt32 rel _ imm | jge32 rel _ imm | jnz32 rel _ imm | jnv32 rel _ imm
  | jnc32 rel _ imm | jnp32 rel _ imm => exact finish_kept (condState_keeps s _ rel (.i32 imm)) h
  | jp64 rel _ imm | jc64 rel _ imm | jv64 rel _ imm | jz64 rel _ imm | jlt64 rel _ imm | jle64 rel _ imm | jbe64 rel _ imm
  | jmi64 rel _ imm | jpl64 rel _ imm | ja64 rel _ imm | jgt64 rel _ imm | jge64 rel _ imm | jnz64 rel _ imm | jnv64 rel _ imm
  | jnc64 rel _ imm | jnp64 rel _ imm => exact finish_kept (condState_keeps s _ rel (.i64 imm)) h
  | jmp | ijmp | fret | ifjmp => exact finish_kept (jumpState_keeps s _) h
  | call | icall => exact finish_kept (callState_keeps s _ _) h
  | fcall | ifcall => exact finish_kept (fastCallState_keeps s _ _) h
  | ret => exact finish_kept (retState_keeps s) h
  | machineSpecific lo h' => exact finish_kept (machineState_keeps s lo h') h
  | halt => exact finish_kept (haltState_keeps s) h
  | pcfl => exact finish_kept (pcflState_keeps s) h
  | flall => exact finish_kept (flallState_keeps s) h
  | dflush a => exact finish_kept (dflushState_keeps s a) h
  | iflush a => exact finish_kept (iflushState_keeps s a) h
  | storegf a => exact finish_kept (storegfState_keeps s a) h

/-- Settles O13: `exec_kept` for the instructions, and register 18 is readonly (10 R30). -/
theorem onlyModeWriters : Obligations.OnlyModeWriters :=
  ⟨fun _ _ _ hw h => (exec_kept hw h).imp_left Kept.mode, fun _ _ => ⟨rfl, rfl⟩⟩

end Sys2Proof.Machine
end

section
/-!
The instructions that write `mode`, the deliveries, and the step: O10, O11, O12.
-/

namespace Sys2Proof.Machine

/-! ### Writes of `mode` (10 R36, R37) -/

/-- In program mode a write of `mode` keeps its upper half (10 R37). -/
theorem writtenMode_bit_program {s : State} (hx : s.xm = true) (v : Word) (i : Nat) :
    (writtenMode s v).getLsbD i = if i < 32 then v.getLsbD i else s.mode.getLsbD i := by
  have hmask : (0xffffffff#64).getLsbD i = decide (i < 32) := by
    have := Nat.testBit_two_pow_sub_one 32 i
    simpa [BitVec.getLsbD] using this
  rcases Nat.lt_or_ge i 64 with hi | hi
  · rw [writtenMode, if_pos hx, BitVec.getLsbD_or, BitVec.getLsbD_and, BitVec.getLsbD_and, BitVec.getLsbD_not, hmask]
    rcases Nat.lt_or_ge i 32 with hlow | hhigh
    · simp [hlow]
    · simp [hi, Nat.not_lt.2 hhigh]
  · rw [if_neg (by omega), BitVec.getLsbD_of_ge _ _ hi, BitVec.getLsbD_of_ge _ _ hi]

/-- In supervisor mode a write of `mode` writes it all (10 R37). -/
theorem writtenMode_supervisor {s : State} (hx : s.xm = false) (v : Word) : writtenMode s v = v := by
  simp [writtenMode, hx]

theorem modeXM_supervisorMode (m : Word) : modeXM (supervisorMode m) = false := by
  rw [modeXM, supervisorMode, setBit_getLsbD _ (by decide), if_neg (by decide), setBit_getLsbD _ (by decide), if_pos rfl]

theorem modeXMM_supervisorMode (m : Word) : modeXMM (supervisorMode m) = false := by
  rw [modeXMM, supervisorMode, setBit_getLsbD _ (by decide), if_pos rfl]

/-- The values an instruction may give `mode`: the old one, an accepted one, or that of supervisor mode. -/
inductive ModeStep (s : State) : Word → Prop where
  | same : ModeStep s s.mode
  | written {v : Word} (h : modeCheck s v = .ok ()) : ModeStep s (writtenMode s v)
  | supervisor : ModeStep s (supervisorMode s.mode)

theorem ModeStep.legal {s : State} {m : Word} (h : ModeStep s m) (hs : ModeLegal s) : modeXM m = modeXMM m := by
  cases h with
  | same => exact hs
  | supervisor => rw [modeXM_supervisorMode, modeXMM_supervisorMode]
  | @written v hc =>
    cases hx : s.xm with
    | true =>
      rw [modeXM, modeXMM, writtenMode_bit_program hx, writtenMode_bit_program hx]
      exact hs
    | false =>
      rw [writtenMode_supervisor hx]
      exact ((modeCheck_ok_iff _ _ _).1 hc).resolve_left (by simp [hx])

/-- From program mode to program mode the upper half of `mode` stays (10 R37). -/
theorem ModeStep.upper {s : State} {m : Word} (h : ModeStep s m) (hs : s.xm = true) (hm : modeXM m = true) :
    m.extractLsb' 32 32 = s.mode.extractLsb' 32 32 := by
  cases h with
  | same => rfl
  | supervisor => rw [modeXM_supervisorMode] at hm; cases hm
  | written =>
    apply BitVec.eq_of_getLsbD_eq
    intro i hi
    rw [BitVec.getLsbD_extractLsb', BitVec.getLsbD_extractLsb', writtenMode_bit_program hs, if_neg (by omega)]

/-- `t` follows from `s` with a write of `mode`, and is else as `Kept` says. -/
structure KeptButMode (s t : State) : Prop where
  rest : Kept s { t with mode := s.mode }
  mode : ModeStep s t.mode

theorem Kept.butMode {s t : State} (h : Kept s t) : KeptButMode s t := by
  have ht : { t with mode := s.mode } = t := by rw [← h.mode]
  exact ⟨ht ▸ h, h.mode ▸ .same⟩

theorem KeptButMode.inv {s t : State} (h : KeptButMode s t) (i : Inv s) : Inv t := by
  obtain ⟨hmem, _, hflags, hcr0, hsccr, hip⟩ := h.rest.inv i
  exact ⟨hmem, h.mode.legal i.mode, hflags, hcr0, hsccr, hip⟩

theorem KeptButMode.supervisor {s t : State} (h : KeptButMode s t) (hs : s.xm = true) (ht : t.xm = true) : SameSupervisor s t := by
  obtain ⟨h1, h2, h3, h4, h5, h6, h7, h8, h9, h10, _, h12, h13, h14⟩ := h.rest.supervisor hs
  exact ⟨h1, h2, h3, h4, h5, h6, h7, h8, h9, h10, h.mode.upper hs ht, h12, h13, h14⟩

/-- In supervisor mode only the invariant is at stake. -/
theorem KeptButMode.of_supervisor {s t : State} (hx : s.xm = false) (hcfg : t.cfg = s.cfg) (hm : ModeStep s t.mode)
    (hi : Inv s → Inv t) : KeptButMode s t := by
  refine ⟨⟨rfl, hcfg, fun i => ?_, fun hp => absurd (hx.symm.trans hp) (by decide)⟩, hm⟩
  obtain ⟨hmem, _, hflags, hcr0, hsccr, hip⟩ := hi i
  exact ⟨hmem, i.mode, hflags, hcr0, hsccr, hip⟩

section
variable (s : State)

theorem setModeAndGo_keeps (m t : Word) : Answers (KeptButMode s) (setModeAndGo s m t) := by
  intro u h
  obtain ⟨hm, hc, rfl⟩ := setModeAndGo_ok h
  exact ⟨(Kept.refl s).branchTo (checkTarget_even hc), .written hm⟩

theorem callsmState_keeps (rel v : Bool) (imm : Imm) : Answers (KeptButMode s) (callsmState rel v imm s) := by
  unfold callsmState
  refine .bind fun ps _ => .bind fun _ hm => .bind fun _ hc => .ok ⟨?_, .written hm⟩
  exact (((Kept.refl s).store ps _).setGpr 7 _).branchTo (checkTarget_even hc)

theorem retrsmState_keeps : Answers (KeptButMode s) (retrsmState s) := by
  unfold retrsmState
  refine .bind fun t _ => .bind fun m _ => .bind fun u hu => .ok ?_
  obtain ⟨hrest, hmode⟩ := setModeAndGo_keeps s m t u hu
  exact ⟨hrest.setGpr 7 _, hmode⟩

theorem scallState_keeps : Answers (KeptButMode s) (scallState s) := by
  unfold scallState
  refine .bind fun _ _ => ?_
  split
  · unfold scallFast
    refine .bind fun _ hc => .ok ⟨?_, .supervisor⟩
    exact (((((Kept.refl s).setGpr 12 _).setGpr 7 _).setGpr 13 _).setGpr 14 _).branchTo (checkTarget_even hc)
  · unfold scallStack
    refine .bind fun ps _ => .bind fun _ hc => .ok ⟨?_, .supervisor⟩
    exact ((((Kept.refl s).store ps _).withHalted false).setGpr 7 _).branchTo (checkTarget_even hc)

theorem returnFrame_keeps : Answers (KeptButMode s) (returnFrame s) := by
  intro u h
  obtain ⟨t, m, f, p, _, _, _, _, hm, hc, rfl⟩ := returnFrame_ok h
  exact ⟨(((Kept.refl s).withFlags (writtenFlags_keeps s f)).setGpr 7 p).branchTo (checkTarget_even hc), .written hm⟩

theorem scretState_keeps : Answers (KeptButMode s) (scretState s) := by
  unfold scretState
  refine .bind fun _ _ => ?_
  split
  · unfold scretFast
    exact .bind fun _ hm => .bind fun _ hc => .ok ⟨((Kept.refl s).setGpr 7 _).branchTo (checkTarget_even hc), .written hm⟩
  · exact returnFrame_keeps s

theorem retiState_keeps : Answers (KeptButMode s) (retiState s) := by
  unfold retiState
  exact .bind fun _ _ => returnFrame_keeps s

theorem restoreProgram_keeps (base : Word) {next : Word} (hn : IpAligned s → next.getLsbD 0 = false) :
    Answers (KeptButMode s) (restoreProgram base next s) := by
  intro u h
  obtain ⟨image, _, hm, rfl⟩ := restoreProgram_ok h
  unfold loadGprs
  generalize (Vector.ofFn fun k : Fin 16 => slotOf image k.val) = g
  exact ⟨((((Kept.refl s).withGpr g).withFlags (writtenFlags_keeps s _)).withIp hn).syncCode, .written hm⟩

theorem rstoarState_keeps (a : Operand) : Answers (KeptButMode s) (rstoarState a s) := by
  unfold rstoarState
  exact .bind fun _ _ => restoreProgram_keeps s _ fun i => nextIp_even i _

theorem restoreFull_cfg (image : List Byte) : (restoreFull s image).cfg = s.cfg := by simp only [restoreFull, loadGprs]

theorem restoreFull_mode (image : List Byte) : (restoreFull s image).mode = writtenMode s (slotOf image 18) := by
  simp only [restoreFull]

/-- The registers that a restore loads are checked where the invariant speaks of them (46 R500). -/
theorem restoreFull_inv {image : List Byte} (i : Inv s) (hcr0 : cr0Check s (slotOf image 32) = .ok ())
    (hsccr : sccrCheck s (slotOf image 37) = .ok ()) (hm : modeCheck s (slotOf image 18) = .ok ()) : Inv (restoreFull s image) := by
  have hmode : modeXM (writtenMode s (slotOf image 18)) = modeXMM (writtenMode s (slotOf image 18)) :=
    (ModeStep.written hm).legal i.mode
  have hflags : (writtenFlags s (slotOf image 17)).extractLsb' 5 59 = 0#59 := flagsLegal_of_keeps i.flags (writtenFlags_keeps s _)
  have hlegal : slotOf image 37 &&& ~~~2#64 = 0 := sccr_legal_of_check i.sccr hsccr
  have hpaging : slotOf image 32 &&& ~~~0x3b#64 = 0 ∧ ptlOf (slotOf image 32) ≤ s.cfg.vas.val := cr0Check_ok hcr0
  unfold restoreFull loadGprs
  generalize (Vector.ofFn fun k : Fin 16 => slotOf image k.val) = g
  exact ⟨i.memory, hmode, hflags, hpaging, hlegal, i.ip⟩

/-- A restore of all registers is a supervisor instruction, and checks what it writes to `mode`, `cr0` and `sccr` (46 R500). -/
theorem rstregfState_keeps (a : Operand) : Answers (KeptButMode s) (rstregfState a s) := by
  unfold rstregfState
  refine .bind fun _ hx => .bind fun _ _ => .bind fun image _ => .bind fun _ _ => .bind fun _ hcr0 => .bind fun _ hsccr =>
    .bind fun _ hm => .bind fun _ hc => .bind fun _ _ => .ok ?_
  have hkept := (Kept.refl (restoreFull s image)).branchTo (checkTarget_even hc)
  refine .of_supervisor (supervisor_of_require hx) ?_ ?_ fun i => hkept.inv (restoreFull_inv s i hcr0 hsccr hm)
  · rw [branchTo_cfg, restoreFull_cfg]
  · rw [branchTo_mode, restoreFull_mode]
    exact .written hm

end

/-! ### What an instruction answers -/

/-- What an instruction leaves: a state that follows from `s`, that after an exception, or that after the interrupt of an `int`. -/
inductive Answered (s : State) : State → Prop where
  | completes {t : State} (h : KeptButMode s t) : Answered s t
  | exception (e : Exc) : Answered s (takeException s e)
  | interrupt (v : Nat) : Answered s (deliverInterrupt s v (nextAfter s 2) s.ip)

theorem finish_answered {s t : State} {r : Except Trap State} (hr : Answers (KeptButMode s) r) (h : finish s r = .next t) :
    Answered s t := by
  rcases (finish_next_iff _ _ _).1 h with h | ⟨e, _, rfl⟩
  · exact .completes (hr t h)
  · exact .exception e

theorem intr_answered {k : BitVec 4} {s t : State} (h : finish s (intState k s) = .next t) : Answered s t := by
  rcases (finish_next_iff _ _ _).1 h with h | ⟨e, _, rfl⟩
  · unfold intState at h
    split at h
    · obtain rfl := Except.ok.inj h
      exact .interrupt _
    · split at h
      · obtain rfl := Except.ok.inj h
        exact .completes (skip_kept s rfl).butMode
      · cases h
  · exact .exception e

theorem exec_answered {i : Instr} {s t : State} (h : exec i s = .next t) : Answered s t := by
  cases hw : writesMode i with
  | false =>
    rcases exec_kept hw h with h | ⟨e, rfl⟩
    · exact .completes h.butMode
    · exact .exception e
  | true =>
    cases i with
    | jsm => exact finish_answered (setModeAndGo_keeps s _ _) h
    | callsm rel v imm => exact finish_answered (callsmState_keeps s rel v imm) h
    | retrsm => exact finish_answered (retrsmState_keeps s) h
    | scall => exact finish_answered (scallState_keeps s) h
    | intr => exact intr_answered h
    | scret => exact finish_answered (scretState_keeps s) h
    | reti => exact finish_answered (retiState_keeps s) h
    | rstoar a => exact finish_answered (rstoarState_keeps s a) h
    | popar => exact finish_answered (restoreProgram_keeps s _ fun i => nextAfter_even i rfl) h
    | rstregf a => exact finish_answered (rstregfState_keeps s a) h
    | _ => cases hw

/-! ### Deliveries keep the invariant -/

/-- At initialisation every field the invariant speaks of is 0, `ip` is 0xff00 and the memories are the boot image. -/
theorem initial_inv (p : Params) (boot : List Byte) : Inv (State.initial p boot) := by
  have hboot := bootMemory_wf (boot.take 0x10000) 0
  exact ⟨⟨hboot, hboot, hboot, hboot⟩, by simp [ModeLegal, modeXM, modeXMM, State.initial], by simp [FlagsLegal, State.initial],
    ⟨by simp [State.initial], by simp [State.initial, ptlOf, ptlBits]⟩, by simp [SccrLegal, State.initial],
    (by decide : (0xff00#64).getLsbD 0 = false)⟩

/-- Settles O10. -/
theorem resetInv : Obligations.ResetInv := ⟨initial_inv, initial_inv _ _⟩

theorem resetCpu_inv {s : State} (h : s.mem.wf) : Inv (resetCpu s) := by
  obtain ⟨_, hmode, hflags, hcr0, hsccr, hip⟩ := initial_inv s.cfg []
  exact ⟨⟨h, h, h, h⟩, hmode, hflags, hcr0, hsccr, hip⟩

theorem withFcode_inv {s : State} (i : Inv s) (f : Word) : Inv { s with fcode := f } :=
  ⟨i.memory, i.mode, i.flags, i.cr0, i.sccr, i.ip⟩

theorem enter_inv {s t : State} {v : Nat} {ip flags sp : Word} (i : Inv s) (h : enter s v ip flags sp = .ok t) : Inv t := by
  obtain ⟨e, ps, _, _, hc, rfl⟩ := enter_ok h
  have hmem := writeBytes_wf ps s.mem (frameBytes ip s.mode flags sp) i.memory.1
  exact ⟨⟨hmem, hmem, hmem, hmem⟩, ModeStep.supervisor.legal i.mode, i.flags, i.cr0, i.sccr, checkTarget_even hc⟩

theorem deliverAbort_inv {s : State} (i : Inv s) : Inv (deliverAbort s) := by
  unfold deliverAbort
  split
  · rename_i t h
    exact enter_inv (withFcode_inv i 0) h
  · exact resetCpu_inv i.memory.1

theorem deliverException_inv {s : State} (i : Inv s) (v : Nat) (ip : Word) : Inv (deliverException s v ip) := by
  unfold deliverException
  split
  · rename_i t h
    exact enter_inv i h
  · exact resetCpu_inv i.memory.1
  · exact deliverAbort_inv i

theorem deliverInterrupt_inv {s : State} (i : Inv s) (v : Nat) {ip : Word} (protIp : Word) (hip : ip.getLsbD 0 = false) :
    Inv (deliverInterrupt s v ip protIp) := by
  unfold deliverInterrupt
  split
  · rename_i t h
    exact enter_inv i h
  · exact resetCpu_inv i.memory.1
  · exact deliverException_inv (withFcode_inv i 0) _ _
  · split
    · exact ⟨i.memory, i.mode, i.flags, i.cr0, i.sccr, hip⟩
    · exact deliverAbort_inv i

theorem writeFaultInfo_inv {s t : State} {f : PageFaultInfo} (i : Inv s) (h : writeFaultInfo s f = some t) : Inv t := by
  unfold writeFaultInfo at h
  split at h
  · obtain rfl := Option.some.inj h
    exact i
  · split at h
    · split at h
      · obtain rfl := Option.some.inj h
        exact ((Kept.refl s).store _ _).inv i
      · cases h
    · cases h

theorem takeException_inv {s : State} (i : Inv s) (e : Exc) : Inv (takeException s e) := by
  cases e with
  | und | prot | xa _ | div => exact deliverException_inv (withFcode_inv i _) _ _
  | pf f =>
    unfold takeException
    simp only
    split
    · rename_i t h
      exact deliverException_inv (writeFaultInfo_inv (withFcode_inv i f.fcode) h) _ _
    · exact deliverAbort_inv i

theorem Answered.inv {s t : State} (h : Answered s t) (i : Inv s) : Inv t := by
  cases h with
  | completes h => exact h.inv i
  | exception e => exact takeException_inv i e
  | interrupt v => exact deliverInterrupt_inv i v _ (nextAfter_even i.ip rfl)

/-! ### The step -/

theorem finish_error_inv {s t : State} {e : Trap} (i : Inv s) (h : finish s (.error e) = .next t) : Inv t := by
  rcases (finish_next_iff _ _ _).1 h with h | ⟨x, _, rfl⟩
  · cases h
  · exact takeException_inv i x

theorem accessEffects_inv {s u : State} {k : Instr} (i : Inv s) (h : accessEffects s k (exec k s) = .next u) : Inv u := by
  obtain ⟨t, ht, h⟩ := accessEffects_next h
  have hinv := (exec_answered ht).inv i
  rcases h with rfl | ⟨e, he⟩ | ⟨x, rfl⟩
  · exact hinv
  · exact (machineApply_keeps t id e u he).inv hinv
  · exact takeException_inv i x

theorem runInstruction_inv {s t : State} (i : Inv s) (h : runInstruction s = .next t) : Inv t := by
  unfold runInstruction at h
  split at h
  · exact accessEffects_inv i ((checkMapping_next_iff _ _ _ _).1 h).1
  · exact finish_error_inv i ((checkMapping_next_iff _ _ _ _).1 h).1

theorem pendingDelivery_inv {s t : State} (i : Inv s) (h : pendingDelivery s = some t) : Inv t := by
  have hclear (k : Nat) : Inv (clearIrq s k) := ⟨i.memory, i.mode, i.flags, i.cr0, i.sccr, i.ip⟩
  have hnmi (f : Word) : Inv { s with nmi := false, fcode := f } := ⟨i.memory, i.mode, i.flags, i.cr0, i.sccr, i.ip⟩
  unfold pendingDelivery at h
  split at h
  · obtain rfl := Option.some.inj h
    exact deliverException_inv (hnmi _) _ _
  · split at h
    · obtain ⟨k, _, rfl⟩ := Option.map_eq_some_iff.1 h
      exact deliverInterrupt_inv (hclear k) _ _ i.ip
    · cases h

/-- A next state is one before it with the counter advanced. -/
theorem tickOutcome_next {o : Host.Outcome State Fault Refusal} {t : State} (h : tickOutcome o = .next t) :
    ∃ u, o = .next u ∧ t = tick u := by
  cases o with
  | next u => exact ⟨u, rfl, (Host.Outcome.next.inj h).symm⟩
  | fault | refused => cases h

/-- What a step can do: deliver what is pending, idle while halted, or run an instruction (70 R600). -/
theorem step_next {s t : State} (h : step s = .next t) :
    (∃ u, pendingDelivery s = some u ∧ t = tick u) ∨ t = s ∨ ∃ u, runInstruction s = .next u ∧ t = tick u := by
  unfold step at h
  split at h
  · rename_i u hu
    obtain ⟨v, hv, rfl⟩ := tickOutcome_next h
    obtain rfl := Host.Outcome.next.inj ((checkMapping_next_iff _ _ _ _).1 hv).1
    exact .inl ⟨u, hu, rfl⟩
  · split at h
    · exact .inr (.inl (Host.Outcome.next.inj h).symm)
    · exact .inr (.inr (tickOutcome_next h))

/-- Settles O11: deliveries and instructions keep the invariant, and the counter is no part of it. -/
theorem stepKeepsInv : Obligations.StepKeepsInv := by
  intro s t i h
  have htick {u : State} (j : Inv u) : Inv (tick u) := ⟨j.memory, j.mode, j.flags, j.cr0, j.sccr, j.ip⟩
  rcases step_next h with ⟨u, hu, rfl⟩ | rfl | ⟨u, hu, rfl⟩
  · exact htick (pendingDelivery_inv i hu)
  · exact i
  · exact htick (runInstruction_inv i hu)

/-! ### Program mode -/

/-- A delivery ends in supervisor mode, but for a Debug Trap that is dropped, which changes nothing of the supervisor's. -/
theorem deliverInterrupt_supervisor {s : State} {v : Nat} {ip protIp : Word} (h : (deliverInterrupt s v ip protIp).xm = true) :
    SameSupervisor s (deliverInterrupt s v ip protIp) := by
  rcases deliverInterrupt_delivered s v ip protIp with hd | hd
  · exact absurd (hd.xm.symm.trans h) (by decide)
  · rw [hd]
    exact .refl s

theorem Answered.supervisor {s t : State} (h : Answered s t) (hs : s.xm = true) (ht : t.xm = true) : SameSupervisor s t := by
  cases h with
  | completes h => exact h.supervisor hs ht
  | exception e => exact absurd ((takeException_delivered s e).xm.symm.trans ht) (by decide)
  | interrupt v => exact deliverInterrupt_supervisor ht

theorem runInstruction_supervisor {s t : State} (h : runInstruction s = .next t) (hs : s.xm = true) (ht : t.xm = true) :
    SameSupervisor s t := by
  unfold runInstruction at h
  split at h
  · rename_i i _
    have h := ((checkMapping_next_iff _ _ _ _).1 h).1
    rw [accessEffects_of_not (accessesMsr_program i hs)] at h
    exact (exec_answered h).supervisor hs ht
  · rcases (finish_next_iff _ _ _).1 ((checkMapping_next_iff _ _ _ _).1 h).1 with h | ⟨e, _, rfl⟩
    · cases h
    · exact (Answered.exception e).supervisor hs ht

theorem pendingDelivery_supervisor {s t : State} (h : pendingDelivery s = some t) (ht : t.xm = true) : SameSupervisor s t := by
  unfold pendingDelivery at h
  split at h
  · obtain rfl := Option.some.inj h
    exact absurd ((deliverException_delivered _ _ _).xm.symm.trans ht) (by decide)
  · split at h
    · obtain ⟨k, _, rfl⟩ := Option.map_eq_some_iff.1 h
      exact deliverInterrupt_supervisor ht
    · cases h

/-- Settles O12: what an instruction or a delivery leaves in program mode keeps the supervisor's state. -/
theorem programModeKeepsSupervisor : Obligations.ProgramModeKeepsSupervisor := by
  intro s t hs h ht
  rcases step_next h with ⟨u, hu, rfl⟩ | rfl | ⟨u, hu, rfl⟩
  · have hkept : SameSupervisor s u := pendingDelivery_supervisor hu ht
    exact hkept
  · exact .refl t
  · have hkept : SameSupervisor s u := runInstruction_supervisor hu hs ht
    exact hkept

end Sys2Proof.Machine
end

section
/-!
Registers: the access checks by number, the checks of a written value, what a write leaves, and O24, O26, O27.
-/

namespace Sys2Proof.Machine

/-! ### The classes by number (10 R30) -/

section
variable {n : Nat}

theorem regClass_general (h : n < 16) : regClass n = .general := if_pos h

theorem regClass_program (h : n = 16 ∨ n = 17 ∨ n = 18) : regClass n = .flags ∨ regClass n = .readonly := by
  rcases h with rfl | rfl | rfl <;> decide

theorem regClass_cpuInfo (h : 136 ≤ n ∧ n ≤ 143) : regClass n = .cpuInfo := by
  unfold regClass
  rw [if_neg (by omega), if_neg (by omega), if_neg (by omega), if_pos h]

theorem regClass_supervisor (h : (128 ≤ n ∧ n ≤ 135) ∨ n = 144 ∨ n = 145 ∨ (148 ≤ n ∧ n ≤ 154)) : regClass n = .supervisor := by
  unfold regClass
  rw [if_neg (by omega), if_neg (by omega), if_neg (by omega), if_neg (by omega), if_pos h]

theorem regClass_reserved (h : (19 ≤ n ∧ n ≤ 127) ∨ n = 146 ∨ n = 147 ∨ 155 ≤ n) : regClass n = .reserved := by
  unfold regClass
  rw [if_neg (by omega), if_neg (by omega), if_neg (by omega), if_neg (by omega), if_neg (by omega)]

theorem isMsr_iff : isMsr n = true ↔ 148 ≤ n ∧ n ≤ 154 := by simp [isMsr]

end

/-! ### The access checks (10 R39) -/

section
variable {s : State} {n : Nat}

theorem regChecks_reserved (h : regClass n = .reserved) :
    regReadCheck s n = .error (.exc .und) ∧ regWriteCheck s n = .error (.exc .und) := by
  simp [regReadCheck, regWriteCheck, h]

/-- The checks of a Supervisor register, for reading and for writing. -/
theorem regChecks_supervisor (h : regClass n = .supervisor) :
    regReadCheck s n = (do require (!s.xm) (.exc .prot); msrCheck s n) ∧
      regWriteCheck s n = (do require (!s.xm) (.exc .prot); msrCheck s n) := by
  simp [regReadCheck, regWriteCheck, h]

theorem regChecks_cpuInfo (h : regClass n = .cpuInfo) :
    regReadCheck s n = require (!s.xm || s.ciread.getLsbD (n - 136)) (.exc .prot) ∧ regWriteCheck s n = .error (.exc .und) := by
  simp [regReadCheck, regWriteCheck, h]

theorem msrCheck_of_allowed (h : n ≤ 145 ∨ s.cfg.msrBehaviour ≠ .refuse) : msrCheck s n = .ok () := by
  rw [msrCheck_ok_iff]
  refine h.imp_left fun hn => ?_
  rw [Bool.eq_false_iff, ne_eq, isMsr_iff]
  omega

theorem msrCheck_of_refused (hn : 148 ≤ n ∧ n ≤ 154) (h : s.cfg.msrBehaviour = .refuse) :
    msrCheck s n = .error (.refuse (.machineRegister n)) := by
  simp [msrCheck, isMsr_iff.2 hn, h]

end

/-- Settles O24: each range of numbers is one class, and each class has its checks. -/
theorem registerChecks : Obligations.RegisterChecks := by
  intro s n hn
  refine ⟨fun h => regChecks_reserved (regClass_reserved h), fun h => ?supervisor, fun h => ?cpuInfo, fun sz r hr => ?update,
    fun h => ?program, fun h => ?general⟩
  case supervisor =>
    obtain ⟨hr, hw⟩ := regChecks_supervisor (s := s) (regClass_supervisor h)
    rw [hr, hw]
    refine ⟨fun hx => by simp [hx], fun hx ha => ?_, fun hx hm ha => ?_⟩
    · simp [hx, msrCheck_of_allowed ha]
    · simp [hx, msrCheck_of_refused (n := n) (by omega) ha]
  case cpuInfo =>
    obtain ⟨hr, hw⟩ := regChecks_cpuInfo (s := s) (regClass_cpuInfo h)
    rw [hr, hw]
    refine ⟨rfl, fun hx hc => by simp [hx, hc], fun ha => ?_⟩
    rw [require_ok_iff]
    simpa using ha
  case update =>
    rw [opUpdateCheck_eq, opWriteCheck, hr]
  case program =>
    rcases regClass_program h with hc | hc <;> simp [regReadCheck, regWriteCheck, hc]
  case general =>
    simp [regReadCheck, regWriteCheck, regClass_general h]

/-! ### The checks of a written value (10 R37, R55, R60) -/

/-- Nothing of a value is left outside a mask exactly if each of its bits is in the mask. -/
theorem and_not_eq_zero_iff (v mask : Word) : v &&& ~~~mask = 0 ↔ ∀ i, v.getLsbD i = true → mask.getLsbD i = true := by
  have h := keepsFlags_iff mask 0 v
  rw [KeepsFlags] at h
  rw [show v &&& ~~~mask = 0 ↔ v &&& ~~~mask = 0 &&& ~~~mask by simp, h]
  refine forall_congr' fun i => ?_
  cases hm : mask.getLsbD i <;> cases hv : v.getLsbD i <;> simp

theorem cr0Mask_bit (i : Nat) : (0x3b#64).getLsbD i = true ↔ i ∈ [0, 1, 3, 4, 5] := by
  rcases Nat.lt_or_ge i 6 with hi | hi
  · interval_cases i <;> decide
  · have hbit : (0x3b#64).getLsbD i = false := testBit_eq_false_of_lt_of_le (n := 6) (by decide) hi
    rw [hbit]
    simp
    omega

theorem sccrMask_bit (i : Nat) : (2#64).getLsbD i = true ↔ i = 1 := by
  rcases Nat.lt_or_ge i 2 with hi | hi
  · interval_cases i <;> decide
  · have hbit : (2#64).getLsbD i = false := testBit_eq_false_of_lt_of_le (n := 2) (by decide) hi
    rw [hbit]
    simp
    omega

/-- `cr0` takes a value only if each of its bits is defined (10 R55). -/
theorem cr0_reserved_iff (v : Word) : v &&& ~~~0x3b#64 = 0 ↔ ∀ i, v.getLsbD i = true → i ∈ [0, 1, 3, 4, 5] := by
  simp only [and_not_eq_zero_iff, cr0Mask_bit]

/-- Only bit 1 of `sccr` may change (10 R60). -/
theorem sccr_change_iff (v w : Word) : (v ^^^ w) &&& ~~~2#64 = 0 ↔ ∀ i, i ≠ 1 → v.getLsbD i = w.getLsbD i := by
  simp only [and_not_eq_zero_iff, sccrMask_bit, BitVec.getLsbD_xor, bne_iff_ne, ne_eq]
  exact forall_congr' fun i => not_imp_comm

theorem cr0Check_reserved {s : State} {v : Word} (h : v &&& ~~~0x3b#64 ≠ 0) : cr0Check s v = .error (.exc .und) := by
  rw [cr0Check, beq_eq_false_iff_ne.2 h, require_false, bind_error]

/-- With its bits defined a value of `cr0` is checked for PTL, then, where it turns paging on, for the `page` register (10 R55). -/
theorem cr0Check_defined {s : State} {v : Word} (h : v &&& ~~~0x3b#64 = 0) :
    cr0Check s v = (do
      require (decide (ptlOf v ≤ s.cfg.vas.val)) (.exc .und)
      require (!(pagingOn v && !pagingOn s.cr0) || s.page.extractLsb' 0 12 == 0#12) (badPageFault s)) := by
  rw [cr0Check, beq_iff_eq.2 h, require_true, bind_ok]

theorem modeCheck_supervisor {s : State} (hx : s.xm = false) (v : Word) :
    modeCheck s v = if v.getLsbD 32 = v.getLsbD 33 then .ok () else .error (.exc .prot) := by
  rw [modeCheck, modeAccepted, hx, Bool.false_or, modeXM, modeXMM]
  split
  · rw [beq_iff_eq.2 ‹_›, require_true]
  · rw [beq_eq_false_iff_ne.2 ‹_›, require_false]

/-- Settles O26: `WriteMode` by mode, `cr0` by its three checks in order, `sccr` by its one. -/
theorem modeAndControlWrites : Obligations.ModeAndControlWrites := by
  refine ⟨fun s v => ⟨fun hx => ⟨(modeCheck_ok_iff _ _ _).2 (.inl hx), writtenMode_bit_program hx v⟩,
    fun hx => ⟨writtenMode_supervisor hx v, modeCheck_supervisor hx v⟩⟩, fun s v => ⟨?reserved, fun hv => ?defined, ?sccrBad, ?sccr⟩⟩
  case reserved =>
    rintro ⟨i, hi, hni⟩
    exact cr0Check_reserved fun h => hni ((cr0_reserved_iff v).1 h i hi)
  case defined =>
    rw [cr0Check_defined ((cr0_reserved_iff v).2 hv)]
    refine ⟨fun hptl => ?_, fun hptl => ⟨fun hon hoff hpage => ?_, fun h => ?_⟩⟩
    · rw [decide_eq_false (show ¬ ptlOf v ≤ s.cfg.vas.val from Nat.not_le.2 hptl), require_false, bind_error]
    · rw [decide_eq_true (show ptlOf v ≤ s.cfg.vas.val from hptl), require_true, bind_ok]
      have hbad : (!(pagingOn v && !pagingOn s.cr0) || s.page.extractLsb' 0 12 == 0#12) = false := by
        simp only [pagingOn, hon, hoff]
        simpa using hpage
      exact ⟨_, (require_error_iff _ _ _).2 ⟨hbad, rfl⟩, rfl, rfl⟩
    · rw [decide_eq_true (show ptlOf v ≤ s.cfg.vas.val from hptl), require_true, bind_ok, require_ok_iff]
      rcases h with h | h | h <;> simp only [pagingOn, h] <;> simp
  case sccrBad =>
    rintro ⟨i, hi, hne⟩
    have h : (v ^^^ s.sccr) &&& ~~~2#64 ≠ 0 := fun h => hne ((sccr_change_iff _ _).1 h i hi)
    rw [sccrCheck, beq_eq_false_iff_ne.2 h, require_false]
  case sccr =>
    exact fun h => (sccrCheck_ok_iff _ _ _).2 ((sccr_change_iff _ _).2 h)

/-! ### Writing a register (30 R206, 10 R69) -/

theorem putReg_low {n : Nat} (h : n < 16) (s : State) (v : Word) : putReg s n v = setGpr s (BitVec.ofNat 4 n) v := if_pos h

theorem readReg_low {n : Nat} (h : n < 16) (s : State) (next : Word) : readReg s next n = getGpr s (BitVec.ofNat 4 n) := if_pos h

theorem putReg_msr (s : State) (k : Fin 7) (v : Word) : putReg s (148 + k.val) v = putMsr s k v := by
  fin_cases k <;> rfl

theorem msr_number {n : Nat} (h : 148 ≤ n ∧ n ≤ 154) : ∃ k : Fin 7, n = 148 + k.val := ⟨⟨n - 148, by omega⟩, by simp only; omega⟩

/-- Which fields a register write can change. -/
theorem putReg_shape (s : State) (n : Nat) (v : Word) :
    putReg s n v = { s with
      gpr := (putReg s n v).gpr, cr0 := (putReg s n v).cr0, page := (putReg s n v).page, flprotect := (putReg s n v).flprotect
      scdp := (putReg s n v).scdp, scsp := (putReg s n v).scsp, sccr := (putReg s n v).sccr, itabp := (putReg s n v).itabp
      ciread := (putReg s n v).ciread, fcode := (putReg s n v).fcode, pfcharp := (putReg s n v).pfcharp
      msr := (putReg s n v).msr, wmem := (putReg s n v).wmem, wptl := (putReg s n v).wptl } := by
  unfold putReg
  split
  · rfl
  · split
    case h_1 => rw [putCr0_eq]
    all_goals rfl

/-- Each of these registers is written by its own number only. -/
theorem putReg_fields (s : State) (n : Nat) (v : Word) :
    let t := putReg s n v
    (n ≠ 129 → t.page = s.page) ∧ (n ≠ 130 → t.flprotect = s.flprotect) ∧ (n ≠ 131 → t.scdp = s.scdp) ∧
      (n ≠ 132 → t.scsp = s.scsp) ∧ (n ≠ 134 → t.itabp = s.itabp) ∧ (n ≠ 135 → t.ciread = s.ciread) ∧
      (n ≠ 144 → t.fcode = s.fcode) ∧ (n ≠ 145 → t.pfcharp = s.pfcharp) ∧ (n < 148 ∨ 154 < n → t.msr = s.msr) := by
  unfold putReg
  split
  · simp
  · split
    case h_1 => simp [putCr0_eq]
    all_goals simp

/-- A write flushes the page caches where it writes `page`, or changes PG (20 R125). -/
theorem putReg_caches (s : State) (n : Nat) (v : Word) :
    let t := putReg s n v
    let flushes := n = 129 ∨ (n = 128 ∧ pagingOn t.cr0 ≠ pagingOn s.cr0)
    t.wmem = (if flushes then s.mem else s.wmem) ∧ t.wptl = (if flushes then ptlBits t.cr0 else s.wptl) := by
  unfold putReg
  split
  · have hpage : n ≠ 129 := by omega
    have hcr0 : n ≠ 128 := by omega
    simp [hpage, hcr0]
  · split
    case h_1 => simp [putCr0_eq]
    case h_2 => simp
    all_goals simp_all

/-- What a register reads as is decided by its own field. -/
theorem readReg_congr {s t : State} {m : Nat} (next : Word) (hgpr : m < 16 → t.gpr = s.gpr) (hflags : t.flags = s.flags)
    (hmode : t.mode = s.mode) (hcr0 : m = 128 → t.cr0 = s.cr0) (hpage : m = 129 → t.page = s.page)
    (hflprotect : m = 130 → t.flprotect = s.flprotect) (hscdp : m = 131 → t.scdp = s.scdp) (hscsp : m = 132 → t.scsp = s.scsp)
    (hsccr : m = 133 → t.sccr = s.sccr) (hitabp : m = 134 → t.itabp = s.itabp) (hciread : m = 135 → t.ciread = s.ciread)
    (hfcode : m = 144 → t.fcode = s.fcode) (hpfcharp : m = 145 → t.pfcharp = s.pfcharp)
    (hmsr : 148 ≤ m ∧ m ≤ 154 → t.msr = s.msr) (hcfg : t.cfg = s.cfg) (hfree : t.freeCtr = s.freeCtr) :
    readReg t next m = readReg s next m := by
  unfold readReg
  split
  · exact getGpr_congr (hgpr ‹_›) _
  · split <;> simp_all [readMsr]


section
variable {s : State} {n : Nat} (v next : Word)

/-- A register reads as what was written to it (30 R206). -/
theorem readReg_putReg_same (hn : n < 16 ∨ (128 ≤ n ∧ n ≤ 135) ∨ n = 144 ∨ n = 145 ∨ (148 ≤ n ∧ n ≤ 154))
    (hmsr : n < 148 ∨ s.cfg.msrBehaviour ≠ .machine) : readReg (putReg s n v) next n = v := by
  rcases hn with h | h | rfl | rfl | h
  · rw [putReg_low h, readReg_low h, getGpr_setGpr_same]
  · obtain ⟨hlow, hhigh⟩ := h
    interval_cases n
    · show (putCr0 s v).cr0 = v
      rw [putCr0_eq]
    all_goals rfl
  · rfl
  · rfl
  · have hplain := hmsr.resolve_left (by omega)
    obtain ⟨k, rfl⟩ := msr_number h
    have hplain' : (putMsr s k v).cfg.msrBehaviour ≠ .machine := hplain
    rw [putReg_msr, readReg_msr hplain', Fin.getElem_fin, putMsr_msr, msrAfter_plain hplain, Vector.getElem_set_self]

/-- Writing a register leaves the others, but what a machine makes of its machine-specific ones (30 R206, log 15). -/
theorem readReg_putReg_other {m : Nat} (hne : m ≠ n)
    (hmsr : n < 148 ∨ m < 148 ∨ 154 < m ∨ s.cfg.msrBehaviour ≠ .machine) : readReg (putReg s n v) next m = readReg s next m := by
  obtain ⟨-, -, fflags, fmode, -, -, -, -, -, -, -, -, -, fcfg, ffree, -, -, fgpr, fcr0, fsccr, -, -⟩ := putReg_frame s n v
  obtain ⟨fpage, fflprotect, fscdp, fscsp, fitabp, fciread, ffcode, fpfcharp, fmsr⟩ := putReg_fields s n v
  by_cases hgpr : m < 16 ∧ n < 16
  · obtain ⟨hm, hn⟩ := hgpr
    have hne' : BitVec.ofNat 4 m ≠ BitVec.ofNat 4 n := fun e => hne (by
      have := congrArg BitVec.toNat e
      simp only [BitVec.toNat_ofNat] at this
      omega)
    rw [putReg_low hn, readReg_low hm, getGpr_setGpr_other _ _ _ _ hne', readReg_low hm]
  · by_cases hboth : (148 ≤ m ∧ m ≤ 154) ∧ (148 ≤ n ∧ n ≤ 154)
    · have hplain : s.cfg.msrBehaviour ≠ .machine := by
        rcases hmsr with h | h | h | h
        · omega
        · omega
        · omega
        · exact h
      obtain ⟨j, rfl⟩ := msr_number hboth.1
      obtain ⟨k, rfl⟩ := msr_number hboth.2
      have hplain' : (putMsr s k v).cfg.msrBehaviour ≠ .machine := hplain
      rw [putReg_msr, readReg_msr hplain', readReg_msr hplain, Fin.getElem_fin, putMsr_msr, msrAfter_plain hplain,
        Vector.getElem_set_ne _ _ (by omega)]
      rfl
    · exact readReg_congr next (fun h => fgpr (by omega)) fflags fmode (fun h => fcr0 (by omega)) (fun h => fpage (by omega))
        (fun h => fflprotect (by omega)) (fun h => fscdp (by omega)) (fun h => fscsp (by omega)) (fun h => fsccr (by omega))
        (fun h => fitabp (by omega)) (fun h => fciread (by omega)) (fun h => ffcode (by omega)) (fun h => fpfcharp (by omega))
        (fun h => fmsr (by omega)) fcfg ffree

end

/-- A machine's own write and read of a machine-specific register (10 R68, log 15). -/
theorem putReg_msr_machine {s : State} (h : s.cfg.msrBehaviour = .machine) (k : Fin 7) (v next : Word) :
    (putReg s (148 + k.val) v).msr = Config.msrWrite s.freeCtr k v s.msr ∧
      readReg (putReg s (148 + k.val) v) next (148 + k.val) =
        Config.msrRead s.freeCtr k (putReg s (148 + k.val) v).msr := by
  have hread (t : State) : readReg t next (148 + k.val) = readMsr t k := by fin_cases k <;> rfl
  rw [putReg_msr, hread]
  exact ⟨by simp [msrAfter, h], by simp [readMsr, h]⟩

/-- Settles O27: registers by the lemmas of `putReg`, memory by those of `writeBytes`. -/
theorem writeDestination : Obligations.WriteDestination := by
  intro s v next
  refine ⟨fun n bits hbits hn => ?register, fun ps hps hlen => ?memory⟩
  case register =>
    intro t
    have ht : t = putReg s n (trunc bits v) := rfl
    clear_value t
    subst ht
    refine ⟨fun hmsr => ?_, fun m _ hne hmsr => readReg_putReg_other _ _ hne hmsr, fun k hk hmachine => ?_, ?_⟩
    · rw [readReg_putReg_same _ _ hn hmsr, trunc_toNat hbits]
    · subst hk
      exact ⟨trunc bits v, trunc_toNat hbits v, putReg_msr_machine hmachine k _ next⟩
    · obtain ⟨hwmem, hwptl⟩ := putReg_caches s n (trunc bits v)
      rw [← hwmem, ← hwptl]
      exact putReg_shape s n (trunc bits v)
  case memory =>
    exact ⟨readBytes_writeBytes_same ps _ _ hps (bytesLE_length _ _), read_writeBytes_other ps s.mem _, rfl⟩

end Sys2Proof.Machine
end

section
/-!
Restoring registers from memory and returning from a supervisor call, exception or interrupt: O18, O42, O55.
-/

namespace Sys2Proof.Machine

/-! ### Bulk restores (41 R304 to R309) -/

section
variable {s : State} {base next : Word} {image : List Byte} {t : Trap}

theorem restoreGprs_of_load (h : memBytes s base 128 = .ok image) :
    restoreGprs base next s = .ok { s with gpr := Vector.ofFn fun i => slotOf image i.val, ip := next } := by
  rw [restoreGprs, h, bind_ok]
  rfl

theorem restoreGprs_of_error (h : memBytes s base 128 = .error t) : restoreGprs base next s = .error t := by
  rw [restoreGprs, h, bind_error]

/-- The slots of the reserved registers 19 to 31 hold 0 (41 R305). -/
def reservedSlotsZero (image : List Byte) : Bool := (List.range 13).all fun i => slotOf image (19 + i) == 0

theorem reservedSlotsZero_iff : reservedSlotsZero image = true ↔ ∀ i, 19 ≤ i → i < 32 → slotOf image i = 0 := by
  simp only [reservedSlotsZero, List.all_eq_true, List.mem_range, beq_iff_eq]
  refine ⟨fun h i hlow hhigh => ?_, fun h i hi => h (19 + i) (by omega) (by omega)⟩
  have := h (i - 19) (by omega)
  rwa [Nat.add_sub_cancel' hlow] at this

/-- A restore of the program registers, once its image is loaded: two checks, then the registers (41 R305). -/
theorem restoreProgram_of_load (h : memBytes s base 256 = .ok image) :
    restoreProgram base next s = (do
      require (reservedSlotsZero image) (.exc .prot)
      modeCheck s (slotOf image 18)
      .ok { s with
        gpr := Vector.ofFn fun i => slotOf image i.val, flags := writtenFlags s (slotOf image 17)
        mode := writtenMode s (slotOf image 18), imem := s.mem, ip := next }) := by
  rw [restoreProgram, h, bind_ok]
  rfl

theorem restoreProgram_of_error (h : memBytes s base 256 = .error t) : restoreProgram base next s = .error t := by
  rw [restoreProgram, h, bind_error]

/-- What an instruction that restores the program registers answers, by its image (41 R305, R309). -/
theorem exec_restoreProgram {i : Instr} (hi : exec i s = finish s (restoreProgram base next s)) (h : memBytes s base 256 = .ok image) :
    ((∃ j, 19 ≤ j ∧ j < 32 ∧ slotOf image j ≠ 0) → exec i s = .next (takeException s .prot)) ∧
      (modeCheck s (slotOf image 18) = .error (.exc .prot) → exec i s = .next (takeException s .prot)) ∧
      ((∀ j, 19 ≤ j → j < 32 → slotOf image j = 0) → modeCheck s (slotOf image 18) = .ok () →
        exec i s = .next { s with
          gpr := Vector.ofFn fun i => slotOf image i.val, flags := writtenFlags s (slotOf image 17)
          mode := writtenMode s (slotOf image 18), imem := s.mem, ip := next }) := by
  rw [hi, restoreProgram_of_load h]
  refine ⟨fun ⟨j, hlow, hhigh, hne⟩ => ?_, fun hm => ?_, fun hz hm => ?_⟩
  · have hbad : reservedSlotsZero image = false :=
      Bool.eq_false_iff.2 fun hz => hne (reservedSlotsZero_iff.1 hz j hlow hhigh)
    rw [hbad, require_false, bind_error, finish_exc]
  · cases reservedSlotsZero image with
    | false => rw [require_false, bind_error, finish_exc]
    | true => rw [require_true, bind_ok, hm, bind_error, finish_exc]
  · rw [reservedSlotsZero_iff.2 hz, require_true, bind_ok, hm, bind_ok, finish_ok]

end

theorem exec_rstogpr {s : State} {a : Operand} (h : isMem a = true) :
    exec (.rstogpr a) s = finish s (restoreGprs (addrOf s (nextIp s [a]) a) (nextIp s [a]) s) := by
  show finish s (rstogprState a s) = _
  rw [rstogprState, h, require_true, bind_ok]

theorem exec_popgpr (s : State) : exec .popgpr s = finish s (restoreGprs (getGpr s 7) (nextAfter s 2) s) := rfl

theorem exec_rstoar {s : State} {a : Operand} (h : isMem a = true) :
    exec (.rstoar a) s = finish s (restoreProgram (addrOf s (nextIp s [a]) a) (nextIp s [a]) s) := by
  show finish s (rstoarState a s) = _
  rw [rstoarState, h, require_true, bind_ok]

theorem exec_popar (s : State) : exec .popar s = finish s (restoreProgram (getGpr s 7) (nextAfter s 2) s) := rfl

/-- Settles O42: two instructions are `restoreGprs`, two are `restoreProgram`. -/
theorem bulkRestore : Obligations.BulkRestore := by
  intro s a image
  refine ⟨fun h ha => exec_next_of_ok (exec_rstogpr ha) (restoreGprs_of_load h),
    fun h => exec_next_of_ok (exec_popgpr s) (restoreGprs_of_load h), fun h ha => exec_restoreProgram (exec_rstoar ha) h,
    fun h => exec_restoreProgram (exec_popar s) h, fun t => ⟨fun ha h => ?_, fun ha h => ?_, fun h => ?_, fun h => ?_⟩⟩
  · exact abandons_of_error (exec_rstogpr ha) (restoreGprs_of_error h)
  · exact abandons_of_error (exec_rstoar ha) (restoreProgram_of_error h)
  · exact abandons_of_error (exec_popgpr s) (restoreGprs_of_error h)
  · exact abandons_of_error (exec_popar s) (restoreProgram_of_error h)

/-! ### Returns in supervisor mode (46 R471, R472) -/

section
variable {s : State} (hx : s.xm = false)
include hx

theorem supervisorOnly_of_supervisor : supervisorOnly s = .ok () := by rw [supervisorOnly, hx]; rfl

theorem exec_reti : exec .reti s = finish s (returnFrame s) := by
  show finish s (retiState s) = _
  rw [retiState, supervisorOnly_of_supervisor hx, bind_ok]

theorem exec_scret_fast (hf : s.sccr.getLsbD 1 = true) : exec .scret s = finish s (scretFast s) := by
  show finish s (scretState s) = _
  rw [scretState, supervisorOnly_of_supervisor hx, bind_ok, if_pos hf]

theorem exec_scret_stack (hf : s.sccr.getLsbD 1 = false) : exec .scret s = finish s (returnFrame s) := by
  show finish s (scretState s) = _
  rw [scretState, supervisorOnly_of_supervisor hx, bind_ok, if_neg (Bool.eq_false_iff.1 hf)]

/-- The fast return, with the value of `mode` as it is written in supervisor mode (46 R471). -/
theorem scretFast_eq :
    scretFast s = (do
      modeCheck s (getGpr s 13)
      checkTarget s (modeXM (getGpr s 13)) (getGpr s 14)
      .ok (branchTo (setGpr { s with mode := getGpr s 13 } 7 (getGpr s 12)) (getGpr s 14))) := by
  rw [scretFast, writtenMode_supervisor hx]

/-- A return whose frame is loaded: the value of `mode` is checked, then the target (46 R472). -/
theorem returnFrame_of_loads {t m f p : Word} (ht : memRead s (getGpr s 7) 8 = .ok t) (hm : memRead s (getGpr s 7 + 8) 8 = .ok m)
    (hf : memRead s (getGpr s 7 + 16) 8 = .ok f) (hp : memRead s (getGpr s 7 + 24) 8 = .ok p) :
    returnFrame s = (do
      modeCheck s m
      checkTarget s (modeXM m) t
      .ok (branchTo (setGpr { s with flags := writtenFlags s f, mode := m } 7 p) t)) := by
  rw [returnFrame, ht, bind_ok, hm, bind_ok, hf, bind_ok, hp, bind_ok, writtenMode_supervisor hx]

end

theorem returnFrame_of_raises {s : State} {x : Trap}
    (h : Raises ([0, 8, 16, 24].map fun o => attempt (memRead s (getGpr s 7 + o) 8)) x) : returnFrame s = .error x := by
  simp only [List.map_cons, List.map_nil, BitVec.ofNat_eq_ofNat, BitVec.add_zero] at h
  exact raises_bind h fun _ _ h => raises_bind h fun _ _ h => raises_bind h fun _ _ h => raises_bind h fun _ _ h =>
    absurd h (raises_nil x)

/-- Settles O55: the fast return by its two checks, the others by the frame they load. -/
theorem supervisorReturn : Obligations.SupervisorReturn := by
  intro s hx
  refine ⟨fun hf hm hc => ?fast, fun t m f p ht hm hf hp i hi hs => ?frame, fun x hf h => ?fastFault, fun x h => ⟨?retiFault, fun hf => ?scretFault⟩⟩
  case fast =>
    refine exec_next_of_ok (exec_scret_fast hx hf) ?_
    rw [scretFast_eq hx, hm, bind_ok, hc, bind_ok]
  case frame =>
    have hexec : exec i s = finish s (returnFrame s) := by
      simp only [List.mem_cons, List.not_mem_nil, or_false] at hi
      rcases hi with rfl | rfl
      · exact exec_reti hx
      · exact exec_scret_stack hx (hs rfl)
    have hreturn := returnFrame_of_loads hx ht hm hf hp
    rw [modeCheck_supervisor hx] at hreturn
    refine ⟨fun hne => ?_, fun heq hc => exec_next_of_ok hexec ?_, fun x heq hc => abandons_of_error hexec ?_⟩
    · rw [hexec, hreturn, if_neg hne, bind_error, finish_exc]
    · rw [hreturn, if_pos heq, bind_ok, modeXM, hc, bind_ok]
    · rw [hreturn, if_pos heq, bind_ok, modeXM, hc, bind_error]
  case fastFault =>
    refine abandons_of_error (exec_scret_fast hx hf) ?_
    rw [scretFast_eq hx]
    exact raises_bind_check h fun h => by rw [raises_singleton.1 h, bind_error]
  case retiFault => exact abandons_of_error (exec_reti hx) (returnFrame_of_raises h)
  case scretFault => exact abandons_of_error (exec_scret_stack hx hf) (returnFrame_of_raises h)

/-! ### The frame of an entry, read back with paging off -/

/-- With paging off an access goes where any other access to the same bytes goes, in any mode (20 R150). -/
theorem translateAll_off {s t : State} (hs : pagingOn s.cr0 = false) (ht : pagingOn t.cr0 = false) (hcfg : t.cfg = s.cfg)
    {xm xm' : Bool} {k k' : Access} {n : Nat} : ∀ {va : Word} {ps : List Nat}, translateAll s xm k va n = .ok ps →
      translateAll t xm' k' va n = .ok ps := by
  induction n with
  | zero => exact id
  | succ n ih =>
    intro va ps h
    simp only [translateAll, bind_ok_iff] at h ⊢
    obtain ⟨p, hp, qs, hqs, h⟩ := h
    rw [translate_physical_ok_iff hs, ← hcfg] at hp
    exact ⟨p, (translate_physical_ok_iff ht).2 hp, qs, ih hqs, h⟩

/-- An access to the first part of some bytes, and one to the rest. -/
theorem translateAll_append {s : State} {xm : Bool} {k : Access} {m n : Nat} : ∀ {va : Word} {ps : List Nat},
    translateAll s xm k va (m + n) = .ok ps →
      translateAll s xm k va m = .ok (ps.take m) ∧ translateAll s xm k (va + BitVec.ofNat 64 m) n = .ok (ps.drop m) := by
  induction m with
  | zero => intro va ps h; simpa [translateAll] using h
  | succ m ih =>
    intro va ps h
    rw [Nat.succ_add] at h
    simp only [translateAll, bind_ok_iff, Except.ok.injEq] at h ⊢
    obtain ⟨p, hp, qs, hqs, rfl⟩ := h
    obtain ⟨hfirst, hrest⟩ := ih hqs
    have hva : va + 1 + BitVec.ofNat 64 m = va + BitVec.ofNat 64 (m + 1) := by
      rw [BitVec.add_assoc, BitVec.add_comm 1, BitVec.ofNat_add]
      rfl
    rw [hva] at hrest
    exact ⟨⟨p, hp, qs.take m, hfirst, rfl⟩, hrest⟩

/-- Eight bytes that hold a value read as it (20 R100). -/
theorem readValue_of_bytes {m : Memory} {ps : List Nat} {v : Word} (h : m.readBytes ps = bytesLE 8 v.toNat) : m.readValue ps = v := by
  rw [Memory.readValue, h, valueLE_bytesLE, Nat.mod_eq_of_lt (show v.toNat < 256 ^ 8 from v.isLt), BitVec.ofNat_toNat, BitVec.setWidth_eq]

/-- With paging off, a value stored `o` bytes into an access is loaded from there. -/
theorem memRead_of_stored {s : State} (hs : pagingOn s.cr0 = false) {xm : Bool} {k : Access} {va v : Word} {o n : Nat}
    {ps : List Nat} (hps : translateAll s xm k va (o + (8 + n)) = .ok ps)
    (hv : ((s.mem.readBytes ps).drop o).take 8 = bytesLE 8 v.toNat) : memRead s (va + BitVec.ofNat 64 o) 8 = .ok v := by
  obtain ⟨_, hrest⟩ := translateAll_append hps
  obtain ⟨hslot, _⟩ := translateAll_append hrest
  rw [memRead_ok_iff]
  refine ⟨_, translateAll_off hs hs rfl hslot, readValue_of_bytes ?_⟩
  rw [← hv, Memory.readBytes, Memory.readBytes, List.map_take, List.map_drop]

/-- The frame that an entry stores is loaded from the new stack pointer: return address, mode, flags, old stack pointer (60 R533). -/
theorem memRead_frame {s : State} (hs : pagingOn s.cr0 = false) {xm : Bool} {k : Access} {va : Word} {ps : List Nat}
    (hps : translateAll s xm k va 32 = .ok ps) {ip mode flags sp : Word}
    (hframe : s.mem.readBytes ps = frameBytes ip mode flags sp) :
    memRead s va 8 = .ok ip ∧ memRead s (va + 8) 8 = .ok mode ∧ memRead s (va + 16) 8 = .ok flags ∧
      memRead s (va + 24) 8 = .ok sp := by
  have hslot (o n : Nat) (ho : o + (8 + n) = 32) (v : Word)
      (hv : ((frameBytes ip mode flags sp).drop o).take 8 = bytesLE 8 v.toNat) : memRead s (va + BitVec.ofNat 64 o) 8 = .ok v :=
    memRead_of_stored hs (ho ▸ hps) (hframe ▸ hv)
  have hip := hslot 0 24 rfl ip rfl
  rw [BitVec.add_zero] at hip
  exact ⟨hip, hslot 8 16 rfl mode rfl, hslot 16 8 rfl flags rfl, hslot 24 0 rfl sp rfl⟩

/-- Writing back to `flags` the value it has changes nothing (10 R34). -/
theorem writtenFlags_self (s : State) : writtenFlags s s.flags = s.flags := by
  apply BitVec.eq_of_getLsbD_eq
  intro i _
  rw [writtenFlags_bit, ite_self]

/-- A general register written twice, at last with the value it had, leaves the registers as they were. -/
theorem setGpr_restore (s : State) (r : BitVec 4) (v : Word) : (s.gpr.set r.toNat v).set r.toNat (getGpr s r) = s.gpr := by
  ext i hi
  by_cases h : r.toNat = i
  · subst h; simp [getGpr]
  · simp [h]

/-- Settles O18: `reti` loads the frame that the entry stored, and its checks pass. -/
theorem returnUndoesEntry : Obligations.ReturnUndoesEntry := by
  intro s t v ip hoff hmode heven hrange hpresent h
  obtain ⟨e, ps, _, hps, _, rfl⟩ := enter_ok h
  generalize hsp : frameStack s e.sp - 32 = sp at hps ⊢
  generalize ht : enterSupervisor s ps (frameBytes ip s.mode s.flags (getGpr s 7)) sp e.ip = t
  have htxm : t.xm = false := by rw [← ht]; exact modeXM_supervisorMode s.mode
  have htsp : getGpr t 7 = sp := by rw [← ht]; exact getGpr_setGpr_same _ 7 sp
  have htoff : pagingOn t.cr0 = false := by rw [← ht]; exact hoff
  have htcfg : t.cfg = s.cfg := by rw [← ht]; rfl
  have htflags : t.flags = s.flags := by rw [← ht]; rfl
  have htgpr : t.gpr = s.gpr.set (7#4).toNat sp := by rw [← ht]; rfl
  have htcr0 : t.cr0 = s.cr0 := by rw [← ht]; rfl
  have hframe : t.mem.readBytes ps = frameBytes ip s.mode s.flags (getGpr s 7) := by
    rw [← ht]
    refine readBytes_writeBytes_same ps _ _ (translateAll_nodup (by decide) hps) ?_
    rw [translateAll_length hps]
    simp [frameBytes]
  obtain ⟨hip, hm, hf, hp⟩ := memRead_frame htoff (translateAll_off (xm' := false) (k' := .read) hoff htoff htcfg hps) hframe
  have hcheck : checkTarget t (modeXM s.mode) ip = .ok () := by
    rw [checkTarget_ok_iff]
    exact ⟨heven, ip.toNat, (translate_physical_ok_iff (by exact htoff)).2 ⟨htcfg ▸ hrange, htcfg ▸ hpresent, rfl⟩⟩
  have hmodeOk : modeCheck t s.mode = .ok () := (modeCheck_ok_iff _ _ _).2 (.inr hmode)
  rw [← htsp] at hip hm hf hp
  have hreturn := returnFrame_of_loads htxm hip hm hf hp
  rw [hmodeOk, bind_ok, hcheck, bind_ok] at hreturn
  refine ⟨_, exec_next_of_ok (exec_reti htxm) hreturn, rfl, rfl, ?_, ?_, rfl, htcr0⟩
  · show writtenFlags t s.flags = s.flags
    rw [← htflags, writtenFlags_self]
  · show t.gpr.set (7#4).toNat (getGpr s 7) = s.gpr
    rw [htgpr]
    exact setGpr_restore s 7 sp

end Sys2Proof.Machine
end

section
/-!
The encoder against the decoder and the length rule: an encoding decodes to its instruction whatever follows it, and its bytes cut off
anywhere tell the fetch to go on (30 R182, R183).
-/

namespace Sys2Proof

/-! ### Bytes and words -/

/-- The two bytes of a word joined again. -/
@[simp] theorem joinBytes (w : BitVec 16) : w.extractLsb' 8 8 ++ w.extractLsb' 0 8 = w := by
  have h := BitVec.extractLsb'_append_extractLsb'_eq_extractLsb' (x := w) (start₁ := 0) (len₁ := 8) (start₂ := 8) (len₂ := 8) rfl
  exact h.trans (BitVec.extractLsb'_eq_self)

theorem opcodeOf_opcodeWord (op : BitVec 12) (h : BitVec 4) : opcodeOf (op.extractLsb' 4 8) (op.extractLsb' 0 4 ++ h) = op := by
  have hop := BitVec.extractLsb'_append_extractLsb'_eq_extractLsb' (x := op) (start₁ := 0) (len₁ := 4) (start₂ := 4) (len₂ := 8) rfl
  simp only [opcodeOf, BitVec.extractLsb'_append_eq_left]
  exact hop.trans (BitVec.extractLsb'_eq_self)

theorem hOf_opcodeWord (op : BitVec 12) (h : BitVec 4) : hOf (op.extractLsb' 0 4 ++ h) = h :=
  BitVec.extractLsb'_append_eq_right

/-- Decoding bytes that start with an opcode word. -/
theorem decode_opcodeWord (op : BitVec 12) (h : BitVec 4) (bs : List Byte) :
    decode (opcodeWord op h ++ bs) = decodeWord op h bs := by
  simp only [opcodeWord, List.cons_append, List.nil_append, decode, opcodeOf_opcodeWord, hOf_opcodeWord]

@[simp] theorem opcodeWord_length (op : BitVec 12) (h : BitVec 4) : (opcodeWord op h).length = 2 := rfl

@[simp] theorem bytesBE16_length (w : BitVec 16) : (bytesBE16 w).length = 2 := rfl

/-! ### Fields -/

@[simp] theorem Size.ofBits_toBits (sz : Size) : Size.ofBits sz.toBits = sz := by
  cases sz <;> rfl

@[simp] theorem Cond.ofCode_code (cc : Cond) : Cond.ofCode cc.code = cc := by
  cases cc <;> rfl

@[simp] theorem bit1_getElem (b : Bool) : (bit1 b)[0] = b := by
  cases b <;> rfl

theorem sizeBits_ne_three (imm : Imm) : imm.sizeBits ≠ 3#2 := by
  cases imm <;> simp [Imm.sizeBits]

theorem withLF_hLF (l f : Bool) (k : Bool → Bool → DecodeResult) : withLF (hLF l f) k = k l f := by
  cases l <;> cases f <;> rfl

theorem withF_hLF (f : Bool) (k : Bool → DecodeResult) : withF (hLF false f) k = k f := by
  cases f <;> rfl

theorem withSF_hSWF (ss : Size) (f : Bool) (k : Size → Bool → DecodeResult) : withSF (hSWF ss false f) k = k ss f := by
  cases ss <;> cases f <;> rfl

theorem withSS_hSS (ss : Size) (k : Size → DecodeResult) : withSS (hSS ss) k = k ss := by
  cases ss <;> rfl

theorem hSWF_fields (ss : Size) (w f : Bool) :
    Size.ofBits ((hSWF ss w f).extractLsb' 2 2) = ss ∧ (hSWF ss w f).getLsbD 1 = w ∧ (hSWF ss w f).getLsbD 0 = f := by
  cases ss <;> cases w <;> cases f <;> decide

/-! ### Immediates -/

@[simp] theorem Imm.encode_length (imm : Imm) : imm.encode.length = imm.bytes := by
  cases imm <;> simp [Imm.encode, Imm.bytes]

theorem Imm.bytes_even (imm : Imm) : imm.bytes % 2 = 0 := by
  cases imm <;> simp [Imm.bytes]

theorem Imm.bytes_le (imm : Imm) : imm.bytes ≤ 8 := by
  cases imm <;> simp [Imm.bytes]

/-- The bytes of a bit vector of `n` bytes, read back. -/
theorem ofNat_valueLE_bytesLE (n : Nat) {w : Nat} (hw : 2 ^ w = 256 ^ n) (v : BitVec w) :
    BitVec.ofNat w (valueLE (bytesLE n v.toNat)) = v := by
  rw [Machine.valueLE_bytesLE, ← hw, Nat.mod_eq_of_lt v.isLt, BitVec.ofNat_toNat, BitVec.setWidth_eq]

theorem decodeImm_encode (imm : Imm) (rest : List Byte) : decodeImm imm.sizeBits (imm.encode ++ rest) = .ok (imm, rest) := by
  cases imm with
  | i16 v => exact congrArg (fun x => Except.ok (Imm.i16 x, rest)) (ofNat_valueLE_bytesLE 2 (by decide) v)
  | i32 v => exact congrArg (fun x => Except.ok (Imm.i32 x, rest)) (ofNat_valueLE_bytesLE 4 (by decide) v)
  | i64 v => exact congrArg (fun x => Except.ok (Imm.i64 x, rest)) (ofNat_valueLE_bytesLE 8 (by decide) v)

/-! ### Operands (30 R185 to R189) -/

/-- The control structure of an operand. -/
def Operand.control : Operand → BitVec 16
  | .reg sz r => 0#2 ++ 0#4 ++ sz.toBits ++ r
  | .ind (.gpr o) scale sz base => 1#2 ++ o ++ scale ++ bit1 false ++ sz.toBits ++ base
  | .ind (.num o) scale sz base => 1#2 ++ o ++ scale ++ bit1 true ++ sz.toBits ++ base
  | .short rel imm => 2#2 ++ bit1 false ++ bit1 rel ++ imm
  | .long rel imm => 3#2 ++ bit1 false ++ 0#2 ++ bit1 rel ++ imm.sizeBits ++ 0#2 ++ 0#2 ++ 0#4
  | .mref rel imm sz => 3#2 ++ bit1 true ++ 0#2 ++ bit1 rel ++ imm.sizeBits ++ 0#2 ++ sz.toBits ++ 0#4

/-- The immediate of an operand, if it has one. -/
def Operand.immediate : Operand → List Byte
  | .reg _ _ | .ind _ _ _ _ | .short _ _ => []
  | .long _ imm | .mref _ imm _ => imm.encode

theorem Operand.encode_eq (a : Operand) : a.encode = bytesBE16 a.control ++ a.immediate := by
  cases a with
  | ind index scale sz base => cases index <;> rfl
  | reg | short | long | mref => rfl

theorem decodeOperand_word (c : BitVec 16) (rest : List Byte) :
    decodeOperand (bytesBE16 c ++ rest) =
      if c.extractLsb' 14 2 = 0#2 then decodeReg c rest
      else if c.extractLsb' 14 2 = 1#2 then decodeInd c rest
      else if c.extractLsb' 14 2 = 2#2 then decodeShort c rest
      else decodeLong c rest := by
  simp only [bytesBE16, List.cons_append, List.nil_append, decodeOperand, joinBytes]

/-- Joining bit vectors, in numbers. -/
theorem toNat_append_add {v w : Nat} (x : BitVec v) (y : BitVec w) : (x ++ y).toNat = x.toNat * 2 ^ w + y.toNat := by
  rw [BitVec.toNat_append, ← Nat.shiftLeft_add_eq_or_of_lt y.isLt, Nat.shiftLeft_eq]

/-- A field of one bit is that bit. -/
theorem getLsbD_of_field {c : BitVec 16} {k : Nat} {b : Bool} (h : c.extractLsb' k 1 = bit1 b) : c.getLsbD k = b := by
  have h0 := congrArg (fun x : BitVec 1 => x.getLsbD 0) h
  simpa using h0

/-- The fields of a register operand (30 R186). -/
theorem regFields (form : BitVec 2) (y : BitVec 4) (ss : BitVec 2) (r : BitVec 8) :
    let c := form ++ y ++ ss ++ r
    c.extractLsb' 14 2 = form ∧ c.extractLsb' 10 4 = y ∧ c.extractLsb' 8 2 = ss ∧ c.extractLsb' 0 8 = r := by
  refine ⟨?_, ?_, ?_, ?_⟩ <;> apply BitVec.eq_of_toNat_eq <;>
    simp only [BitVec.extractLsb'_toNat, toNat_append_add, Nat.shiftRight_eq_div_pow] <;> omega

/-- The fields of an indirect register operand (30 R187). -/
theorem indFields (form : BitVec 2) (o : BitVec 4) (scale : BitVec 3) (k : Bool) (ss : BitVec 2) (base : BitVec 4) :
    let c := form ++ o ++ scale ++ bit1 k ++ ss ++ base
    c.extractLsb' 14 2 = form ∧ c.extractLsb' 10 4 = o ∧ c.extractLsb' 7 3 = scale ∧ c.getLsbD 6 = k ∧
      c.extractLsb' 4 2 = ss ∧ c.extractLsb' 0 4 = base := by
  refine ⟨?_, ?_, ?_, getLsbD_of_field ?_, ?_, ?_⟩ <;> apply BitVec.eq_of_toNat_eq <;>
    simp only [BitVec.extractLsb'_toNat, toNat_append_add, Nat.shiftRight_eq_div_pow] <;> omega

/-- The fields of a short immediate (30 R188). -/
theorem shortFields (form : BitVec 2) (y r : Bool) (imm : BitVec 12) :
    let c := form ++ bit1 y ++ bit1 r ++ imm
    c.extractLsb' 14 2 = form ∧ c.getLsbD 13 = y ∧ c.getLsbD 12 = r ∧ c.extractLsb' 0 12 = imm := by
  refine ⟨?_, getLsbD_of_field ?_, getLsbD_of_field ?_, ?_⟩ <;> apply BitVec.eq_of_toNat_eq <;>
    simp only [BitVec.extractLsb'_toNat, toNat_append_add, Nat.shiftRight_eq_div_pow] <;> omega

/-- The fields of a long immediate or memory reference (30 R189). -/
theorem longFields : ∀ (m r : Bool) (ss sz : BitVec 2),
    let c := 3#2 ++ bit1 m ++ 0#2 ++ bit1 r ++ ss ++ 0#2 ++ sz ++ 0#4
    c.extractLsb' 14 2 = 3#2 ∧ c.getLsbD 13 = m ∧ c.extractLsb' 11 2 = 0#2 ∧ c.getLsbD 10 = r ∧ c.extractLsb' 8 2 = ss ∧
      c.extractLsb' 6 2 = 0#2 ∧ c.extractLsb' 4 2 = sz ∧ c.extractLsb' 0 4 = 0#4 := by
  decide

/-- An encoded operand decodes to itself, whatever follows it. -/
theorem decodeOperand_encode (a : Operand) (rest : List Byte) : decodeOperand (a.encode ++ rest) = .ok (a, rest) := by
  rw [Operand.encode_eq, List.append_assoc, decodeOperand_word]
  cases a with
  | reg sz r =>
    obtain ⟨hform, hy, hss, hr⟩ := regFields 0#2 0#4 sz.toBits r
    simp only [Operand.control, hform, decodeReg, hy, hss, hr, Size.ofBits_toBits, if_true]
    rfl
  | ind index scale sz base =>
    cases index with
    | gpr o =>
      obtain ⟨hform, ho, hscale, hk, hss, hbase⟩ := indFields 1#2 o scale false sz.toBits base
      simp only [Operand.control, hform, decodeInd, ho, hscale, hk, hss, hbase, Size.ofBits_toBits]
      rfl
    | num o =>
      obtain ⟨hform, ho, hscale, hk, hss, hbase⟩ := indFields 1#2 o scale true sz.toBits base
      simp only [Operand.control, hform, decodeInd, ho, hscale, hk, hss, hbase, Size.ofBits_toBits]
      rfl
  | short rel imm =>
    obtain ⟨hform, hy, hrel, himm⟩ := shortFields 2#2 false rel imm
    simp only [Operand.control, hform, decodeShort, hy, hrel, himm]
    rfl
  | long rel imm =>
    obtain ⟨hform, hm, hy, hrel, hss, hz, hsz, hlow⟩ := longFields false rel imm.sizeBits 0#2
    simp only [Operand.control, hform, decodeLong, hm, hy, hrel, hss, hz, hsz, hlow, Operand.immediate, decodeImm_encode]
    rfl
  | mref rel imm sz =>
    obtain ⟨hform, hm, hy, hrel, hss, hz, hsz, hlow⟩ := longFields true rel imm.sizeBits sz.toBits
    simp only [Operand.control, hform, decodeLong, hm, hy, hrel, hss, hz, hsz, hlow, Operand.immediate, decodeImm_encode,
      Size.ofBits_toBits]
    rfl

/-! ### Branches (45 R420) -/

/-- The fields of a branch opcode. -/
theorem branchOp_fields : ∀ (ss : BitVec 2) (rel : Bool) (c : BitVec 4),
    let op := 7#4 ++ ss ++ 0#1 ++ bit1 rel ++ c
    op.extractLsb' 8 4 = 7#4 ∧ op.extractLsb' 6 2 = ss ∧ op.getLsbD 5 = false ∧ op.extractLsb' 5 1 = 0#1 ∧
      op.getLsbD 4 = rel ∧ op.extractLsb' 0 4 = c := by
  decide

/-- The conditional branch with an immediate of any size. -/
def condBranch (cc : Cond) (rel : Bool) (weight : BitVec 4) : Imm → Instr
  | .i16 v => jcc16 cc rel weight v
  | .i32 v => jcc32 cc rel weight v
  | .i64 v => jcc64 cc rel weight v

theorem decode_encodeCond (cc : Cond) (rel : Bool) (weight : BitVec 4) (imm : Imm) (rest : List Byte) :
    decode (encodeCond cc rel weight imm ++ rest) = .ok (condBranch cc rel weight imm, rest) := by
  obtain ⟨hblock, hss, hbit5, -, hrel, hcode⟩ := branchOp_fields imm.sizeBits rel cc.code
  have hword (bs : List Byte) : decodeWord (7#4 ++ imm.sizeBits ++ 0#1 ++ bit1 rel ++ cc.code) weight bs =
      decodeCond imm.sizeBits cc rel weight bs := by
    simp only [decodeWord, hblock, decodeBranch, hss, hbit5, hrel, hcode, sizeBits_ne_three, Cond.ofCode_code]
    rfl
  rw [encodeCond, List.append_assoc, decode_opcodeWord, hword, decodeCond, decodeImm_encode]
  cases imm <;> rfl

theorem decode_encodeUncond (rel : Bool) (oooo h : BitVec 4) (rest : List Byte) :
    decode (encodeUncond rel oooo h ++ rest) = decodeUncond rel oooo.toNat h rest := by
  obtain ⟨hblock, hss, hbit5, -, hrel, hcode⟩ := branchOp_fields 3#2 rel oooo
  rw [encodeUncond, decode_opcodeWord]
  simp only [decodeWord, hblock, decodeBranch, hss, hbit5, hrel, hcode]
  rfl

theorem decode_encodeUncondImm (rel : Bool) (oooo : BitVec 4) (v : Bool) (imm : Imm) (rest : List Byte) :
    decode (encodeUncondImm rel oooo v imm ++ rest) =
      decodeUncond rel oooo.toNat (bit1 v ++ 0#1 ++ imm.sizeBits) (imm.encode ++ rest) := by
  rw [encodeUncondImm, List.append_assoc, decode_encodeUncond]

/-- The fields of `h` before a branch immediate. -/
theorem branchH_fields : ∀ (v : Bool) (ss : BitVec 2),
    let h := bit1 v ++ 0#1 ++ ss
    h.getLsbD 3 = v ∧ h.getLsbD 2 = false ∧ h.extractLsb' 2 2 = bit1 v ++ 0#1 ∧ h.extractLsb' 0 2 = ss := by
  decide

theorem decodeBranchImm_encode (k : Imm → Instr) (imm : Imm) (rest : List Byte) :
    decodeBranchImm (bit1 false ++ 0#1 ++ imm.sizeBits) k (imm.encode ++ rest) = .ok (k imm, rest) := by
  obtain ⟨-, -, hzero, hss⟩ := branchH_fields false imm.sizeBits
  simp only [decodeBranchImm, hzero, hss, decodeImm_encode]
  rfl

theorem decodeCallsm_encode (rel v : Bool) (imm : Imm) (rest : List Byte) :
    decodeCallsm (bit1 v ++ 0#1 ++ imm.sizeBits) rel (imm.encode ++ rest) = .ok (.callsm rel v imm, rest) := by
  obtain ⟨hv, hzero, -, hss⟩ := branchH_fields v imm.sizeBits
  simp only [decodeCallsm, hv, hzero, hss, decodeImm_encode]
  rfl

theorem ijmpForm_register {rel : Bool} {r : BitVec 4} (h : WellFormed (.ijmp rel r) = true) : ijmpForm rel r = .ijmp rel r := by
  simp only [WellFormed, Bool.and_eq_true, bne_iff_ne] at h
  obtain ⟨hfret, hifjmp⟩ := h
  rw [ijmpForm, if_neg hfret, if_neg hifjmp]

/-! ### Followers (42 R331) -/

theorem decodeRep_word (k : Follower → Instr) (op : BitVec 12) (h : BitVec 4) (rest : List Byte) :
    decodeRep k (opcodeWord op h ++ rest) = .ok (k (decodeFollower op h), rest) := by
  simp only [opcodeWord, List.cons_append, List.nil_append, decodeRep, opcodeOf_opcodeWord, hOf_opcodeWord]

/-- The word of an opcode and an `h` field. -/
theorem opcodeWord_eq (op : BitVec 12) (h : BitVec 4) : opcodeWord op h = bytesBE16 (op ++ h) := by
  have hlow : (op ++ h).extractLsb' 0 8 = op.extractLsb' 0 4 ++ h := by
    apply BitVec.eq_of_toNat_eq
    simp only [BitVec.extractLsb'_toNat, toNat_append_add, Nat.shiftRight_eq_div_pow]
    omega
  have hhigh : (op ++ h).extractLsb' 8 8 = op.extractLsb' 4 8 := by
    apply BitVec.eq_of_toNat_eq
    simp only [BitVec.extractLsb'_toNat, toNat_append_add, Nat.shiftRight_eq_div_pow]
    omega
  rw [opcodeWord, bytesBE16, hlow, hhigh]

/-- A word cut into an opcode and an `h` field. -/
theorem splitWord (w : BitVec 16) : w.extractLsb' 4 12 ++ w.extractLsb' 0 4 = w :=
  (BitVec.extractLsb'_append_extractLsb'_eq_extractLsb' rfl).trans BitVec.extractLsb'_eq_self

theorem bytesBE16_eq_opcodeWord (w : BitVec 16) : bytesBE16 w = opcodeWord (w.extractLsb' 4 12) (w.extractLsb' 0 4) := by
  rw [opcodeWord_eq, splitWord]

/-- A word that is no legal follower is kept as it is. -/
theorem decodeFollower_invalid {w : BitVec 16} (h : isFollowerWord w = false) :
    decodeFollower (w.extractLsb' 4 12) (w.extractLsb' 0 4) = .invalid w := by
  have hop : (w.extractLsb' 4 12).toNat = w.toNat / 16 := by
    simp only [BitVec.extractLsb'_toNat, Nat.shiftRight_eq_div_pow]
    omega
  unfold decodeFollower
  split
  · next hzero =>
    have hlow : w.toNat % 16 < 4 := by
      have := congrArg BitVec.toNat hzero
      simp only [BitVec.extractLsb'_toNat, Nat.shiftRight_eq_div_pow, BitVec.toNat_ofNat] at this
      omega
    rw [hop]
    simp only [isFollowerWord, hlow, decide_true, Bool.true_and, Bool.or_eq_false_iff, Bool.and_eq_false_iff,
      decide_eq_false_iff_not] at h
    obtain ⟨⟨hblock, hin⟩, hout⟩ := h
    split
    case h_8 => rw [splitWord]
    all_goals omega
  · rw [splitWord]

theorem decodeRep_encode (k : Follower → Instr) {fo : Follower} (h : fo.wellFormed = true) (rest : List Byte) :
    decodeRep k (fo.encode ++ rest) = .ok (k fo, rest) := by
  cases fo with
  | invalid w =>
    rw [Follower.encode, bytesBE16_eq_opcodeWord, decodeRep_word, decodeFollower_invalid (by simpa [Follower.wellFormed] using h)]
  | bcpy ss | bsto ss | bsca ss | bcmp ss | btst ss | inp ss | outp ss =>
    rw [Follower.encode, decodeRep_word]
    cases ss <;> rfl

/-! ### Instructions (30 R182) -/

theorem decode1_encode (k : Operand → Instr) (a : Operand) (bs : List Byte) : decode1 k (a.encode ++ bs) = .ok (k a, bs) := by
  rw [decode1, decodeOperand_encode]
  rfl

theorem decode2_encode (k : Operand → Operand → Instr) (a : Operand) (bs : List Byte) :
    decode2 k (a.encode ++ bs) = decode1 (k a) bs := by
  rw [decode2, decodeOperand_encode]
  rfl

theorem decode3_encode (k : Operand → Operand → Operand → Instr) (a : Operand) (bs : List Byte) :
    decode3 k (a.encode ++ bs) = decode2 (k a) bs := by
  rw [decode3, decodeOperand_encode]
  rfl

section
variable {op : BitVec 12} (rest : List Byte)

theorem decode_none {h : BitVec 4} {i : Instr} (hop : decodeWord op h rest = decode0 i rest) :
    decode (opcodeWord op h ++ rest) = .ok (i, rest) :=
  (decode_opcodeWord op h rest).trans hop

theorem decode_sized {k : Size → Instr} (hop : ∀ h, decodeWord op h rest = withSS h fun ss => decode0 (k ss) rest) (ss : Size) :
    decode (opcodeWord op (hSS ss) ++ rest) = .ok (k ss, rest) :=
  decode_none rest ((hop _).trans (withSS_hSS ss _))

theorem decode_mul {k : Size → Bool → Instr} (hop : ∀ h, decodeWord op h rest = withSF h fun ss f => decode0 (k ss f) rest)
    (ss : Size) (f : Bool) : decode (opcodeWord op (hSWF ss false f) ++ rest) = .ok (k ss f, rest) :=
  decode_none rest ((hop _).trans (withSF_hSWF ss f _))

theorem decode_div {k : Size → Bool → Bool → Instr}
    (hop : ∀ h : BitVec 4, decodeWord op h rest = decode0 (k (.ofBits (h.extractLsb' 2 2)) (h.getLsbD 1) (h.getLsbD 0)) rest)
    (ss : Size) (w f : Bool) : decode (opcodeWord op (hSWF ss w f) ++ rest) = .ok (k ss w f, rest) := by
  obtain ⟨hss, hw, hf⟩ := hSWF_fields ss w f
  rw [decode_none rest (hop _), hss, hw, hf]

theorem decode_one {h : BitVec 4} {k : Operand → Instr} (hop : ∀ bs, decodeWord op h bs = decode1 k bs) (a : Operand) :
    decode (opcodeWord op h ++ a.encode ++ rest) = .ok (k a, rest) := by
  rw [List.append_assoc, decode_opcodeWord, hop, decode1_encode]

theorem decode_one_lf {k : Bool → Bool → Operand → Instr}
    (hop : ∀ h bs, decodeWord op h bs = withLF h fun l f => decode1 (k l f) bs) (l f : Bool) (a : Operand) :
    decode (opcodeWord op (hLF l f) ++ a.encode ++ rest) = .ok (k l f a, rest) :=
  decode_one rest (fun bs => (hop _ bs).trans (withLF_hLF l f _)) a

theorem decode_two {h : BitVec 4} {k : Operand → Operand → Instr} (hop : ∀ bs, decodeWord op h bs = decode2 k bs)
    (a b : Operand) : decode (opcodeWord op h ++ a.encode ++ b.encode ++ rest) = .ok (k a b, rest) := by
  rw [List.append_assoc, List.append_assoc, decode_opcodeWord, hop, decode2_encode, decode1_encode]

theorem decode_two_lf {k : Bool → Bool → Operand → Operand → Instr}
    (hop : ∀ h bs, decodeWord op h bs = withLF h fun l f => decode2 (k l f) bs) (l f : Bool) (a b : Operand) :
    decode (opcodeWord op (hLF l f) ++ a.encode ++ b.encode ++ rest) = .ok (k l f a b, rest) :=
  decode_two rest (fun bs => (hop _ bs).trans (withLF_hLF l f _)) a b

theorem decode_two_f {k : Bool → Operand → Operand → Instr}
    (hop : ∀ h bs, decodeWord op h bs = withF h fun f => decode2 (k f) bs) (f : Bool) (a b : Operand) :
    decode (opcodeWord op (hLF false f) ++ a.encode ++ b.encode ++ rest) = .ok (k f a b, rest) :=
  decode_two rest (fun bs => (hop _ bs).trans (withF_hLF f _)) a b

theorem decode_three {h : BitVec 4} {k : Operand → Operand → Operand → Instr}
    (hop : ∀ bs, decodeWord op h bs = decode3 k bs) (a b c : Operand) :
    decode (opcodeWord op h ++ a.encode ++ b.encode ++ c.encode ++ rest) = .ok (k a b c, rest) := by
  rw [List.append_assoc, List.append_assoc, List.append_assoc, decode_opcodeWord, hop, decode3_encode, decode2_encode,
    decode1_encode]

theorem decode_rep {k : Cond → Follower → Instr} (hop : ∀ h bs, decodeWord op h bs = decodeRep (k (.ofCode h)) bs) (cc : Cond)
    {fo : Follower} (hwf : fo.wellFormed = true) :
    decode (opcodeWord op cc.code ++ fo.encode ++ rest) = .ok (k cc fo, rest) := by
  rw [List.append_assoc, decode_opcodeWord, hop, Cond.ofCode_code, decodeRep_encode _ hwf]

end

/-- The machine-specific opcodes are 0xfe0 to 0xffe; 0xfff is none of them (40 R240). -/
theorem decodeTop_machineSpecific : ∀ lo : BitVec 5, lo ≠ 31#5 →
    let op := 0x7f#7 ++ lo
    op.extractLsb' 8 4 = 0xf#4 ∧ op ≠ 0xfc6#12 ∧ op ≠ 0xfc7#12 ∧ op ≠ 0xfff#12 ∧ op.extractLsb' 5 7 = 0x7f#7 ∧
      op.extractLsb' 0 5 = lo := by
  decide

theorem decodeWord_machineSpecific {lo : BitVec 5} (hlo : lo ≠ 31#5) (h : BitVec 4) (bs : List Byte) :
    decodeWord (0x7f#7 ++ lo) h bs = decode0 (.machineSpecific lo h) bs := by
  obtain ⟨hblock, hscret, hreti, hfff, hhigh, hlow⟩ := decodeTop_machineSpecific lo hlo
  simp only [decodeWord, hblock, decodeTop, hscret, hreti, hfff, hhigh, hlow]
  rfl

/-- The encoding of a well-formed instruction decodes to it, whatever follows. -/
theorem decode_encode_append : ∀ {i : Instr}, WellFormed i = true → ∀ rest, decode (encode i ++ rest) = .ok (i, rest)
  | .und000 _, _, rest | .undFff _, _, rest | .nop0, _, rest | .pushr _, _, rest | .popr _, _, rest | .pushgpr, _, rest
  | .pushar, _, rest | .popgpr, _, rest | .popar, _, rest | .bnotr _, _, rest | .negr _, _, rest | .fence, _, rest
  | .scret, _, rest | .reti, _, rest | .halt, _, rest | .pcfl, _, rest | .flall, _, rest => decode_none rest rfl
  | .mul ss f, _, rest | .imul ss f, _, rest => decode_mul rest (fun _ => rfl) ss f
  | .div ss w f, _, rest | .idiv ss w f, _, rest => decode_div rest (fun _ => rfl) ss w f
  | .bcpy ss, _, rest | .bsto ss, _, rest | .bsca ss, _, rest | .bcmp ss, _, rest | .btst ss, _, rest | .inp ss, _, rest
  | .outp ss, _, rest => decode_sized rest (fun _ => rfl) ss
  | .machineSpecific _ h, hwf, rest =>
    decode_none rest (decodeWord_machineSpecific (bne_iff_ne.1 hwf) h rest)
  | .movrToGpr _ a, _, rest | .movrFromGpr _ a, _, rest | .lear _ a, _, rest | .nop1 a, _, rest | .push a, _, rest
  | .pop a, _, rest | .stogpr a, _, rest | .stoar a, _, rest | .rstogpr a, _, rest | .rstoar a, _, rest | .lshr _ a, _, rest
  | .rshr _ a, _, rest | .arshr _ a, _, rest | .lshcr _ a, _, rest | .rshcr _ a, _, rest | .lrotr _ a, _, rest
  | .rrotr _ a, _, rest | .addrGprDst _ a, _, rest | .subrGprDst _ a, _, rest | .andrGprDst _ a, _, rest
  | .orrGprDst _ a, _, rest | .xorrGprDst _ a, _, rest | .addrGprSrc _ a, _, rest | .subrGprSrc _ a, _, rest
  | .andrGprSrc _ a, _, rest | .orrGprSrc _ a, _, rest | .xorrGprSrc _ a, _, rest | .cmpr _ a, _, rest
  | .testr _ a, _, rest | .dflush a, _, rest | .iflush a, _, rest | .storegf a, _, rest | .rstregf a, _, rest =>
    decode_one rest (fun _ => rfl) a
  | .bnot l f a, _, rest | .neg l f a, _, rest => decode_one_lf rest (fun _ _ => rfl) l f a
  | .mov a b, _, rest | .lea a b, _, rest | .nop2 a b, _, rest | .cmp a b, _, rest | .test a b, _, rest
  | .xchg a b, _, rest => decode_two rest (fun _ => rfl) a b
  | .add l f a b, _, rest | .sub l f a b, _, rest | .and l f a b, _, rest | .or l f a b, _, rest | .xor l f a b, _, rest
  | .lsh l f a b, _, rest | .rsh l f a b, _, rest | .arsh l f a b, _, rest | .lshc l f a b, _, rest
  | .rshc l f a b, _, rest | .lrot l f a b, _, rest | .rrot l f a b, _, rest =>
    decode_two_lf rest (fun _ _ => rfl) l f a b
  | .movsx f a b, _, rest | .bswap f a b, _, rest => decode_two_f rest (fun _ _ => rfl) f a b
  | .nop3 a b c, _, rest | .cmpxchg a b c, _, rest | .wcmpxchg a b c, _, rest => decode_three rest (fun _ => rfl) a b c
  | .repbi cc _, hwf, rest | .repbc cc _, hwf, rest => decode_rep rest (fun _ _ => rfl) cc hwf
  | .jp16 .., _, rest | .jc16 .., _, rest | .jv16 .., _, rest | .jz16 .., _, rest | .jlt16 .., _, rest | .jle16 .., _, rest
  | .jbe16 .., _, rest | .jmi16 .., _, rest | .jpl16 .., _, rest | .ja16 .., _, rest | .jgt16 .., _, rest
  | .jge16 .., _, rest | .jnz16 .., _, rest | .jnv16 .., _, rest | .jnc16 .., _, rest | .jnp16 .., _, rest
  | .jp32 .., _, rest | .jc32 .., _, rest | .jv32 .., _, rest | .jz32 .., _, rest | .jlt32 .., _, rest | .jle32 .., _, rest
  | .jbe32 .., _, rest | .jmi32 .., _, rest | .jpl32 .., _, rest | .ja32 .., _, rest | .jgt32 .., _, rest
  | .jge32 .., _, rest | .jnz32 .., _, rest | .jnv32 .., _, rest | .jnc32 .., _, rest | .jnp32 .., _, rest
  | .jp64 .., _, rest | .jc64 .., _, rest | .jv64 .., _, rest | .jz64 .., _, rest | .jlt64 .., _, rest | .jle64 .., _, rest
  | .jbe64 .., _, rest | .jmi64 .., _, rest | .jpl64 .., _, rest | .ja64 .., _, rest | .jgt64 .., _, rest
  | .jge64 .., _, rest | .jnz64 .., _, rest | .jnv64 .., _, rest | .jnc64 .., _, rest | .jnp64 .., _, rest =>
    decode_encodeCond _ _ _ _ rest
  | .jmp rel imm, _, rest | .call rel imm, _, rest | .fcall rel imm, _, rest | .jsm rel imm, _, rest =>
    (decode_encodeUncondImm rel _ false imm rest).trans (decodeBranchImm_encode _ imm rest)
  | .callsm rel v imm, _, rest => (decode_encodeUncondImm rel _ v imm rest).trans (decodeCallsm_encode rel v imm rest)
  | .ijmp rel r, hwf, rest =>
    (decode_encodeUncond rel _ r rest).trans (congrArg (fun i => decode0 i rest) (ijmpForm_register hwf))
  | .ret, _, rest | .scall, _, rest | .intr _, _, rest | .fret _, _, rest | .ifjmp _, _, rest | .icall _ _, _, rest
  | .ifcall _, _, rest | .retrsm, _, rest => decode_encodeUncond _ _ _ rest

end Sys2Proof
end

section
/-!
How many bytes an encoding has, that its bytes cut off anywhere tell the fetch to go on, and so that the fetch reads the whole of it
(30 R183).
-/

namespace Sys2Proof

/-! ### The bytes of operands -/

/-- The bytes of a list of operands. -/
def operandsEncode (as : List Operand) : List Byte := as.flatMap Operand.encode

@[simp] theorem operandsEncode_nil : operandsEncode [] = [] := rfl

@[simp] theorem operandsEncode_cons (a : Operand) (as : List Operand) :
    operandsEncode (a :: as) = a.encode ++ operandsEncode as := rfl

/-- The control structure tells how long the immediate after it is, and it is not the reserved one. -/
theorem control_length (a : Operand) : isReservedImm a.control = false ∧ immBytesOf a.control = a.immediate.length := by
  cases a with
  | reg sz r =>
    obtain ⟨hform, -, -, -⟩ := regFields 0#2 0#4 sz.toBits r
    simp only [Operand.control, isReservedImm, immBytesOf, hform]
    exact ⟨rfl, rfl⟩
  | ind index scale sz base =>
    cases index with
    | gpr o =>
      obtain ⟨hform, -⟩ := indFields 1#2 o scale false sz.toBits base
      simp only [Operand.control, isReservedImm, immBytesOf, hform]
      exact ⟨rfl, rfl⟩
    | num o =>
      obtain ⟨hform, -⟩ := indFields 1#2 o scale true sz.toBits base
      simp only [Operand.control, isReservedImm, immBytesOf, hform]
      exact ⟨rfl, rfl⟩
  | short rel imm =>
    obtain ⟨hform, -⟩ := shortFields 2#2 false rel imm
    simp only [Operand.control, isReservedImm, immBytesOf, hform]
    exact ⟨rfl, rfl⟩
  | long rel imm =>
    obtain ⟨hform, -, -, -, hss, -⟩ := longFields false rel imm.sizeBits 0#2
    simp only [Operand.control, isReservedImm, immBytesOf, hform, hss]
    cases imm <;> exact ⟨rfl, rfl⟩
  | mref rel imm sz =>
    obtain ⟨hform, -, -, -, hss, -⟩ := longFields true rel imm.sizeBits sz.toBits
    simp only [Operand.control, isReservedImm, immBytesOf, hform, hss]
    cases imm <;> exact ⟨rfl, rfl⟩

theorem immediate_length (a : Operand) : a.immediate.length % 2 = 0 ∧ a.immediate.length ≤ 8 := by
  cases a with
  | reg | ind | short => exact ⟨rfl, Nat.zero_le 8⟩
  | long rel imm | mref rel imm sz =>
    simp only [Operand.immediate, Imm.encode_length]
    exact ⟨imm.bytes_even, imm.bytes_le⟩

theorem Operand.encode_length (a : Operand) : a.encode.length = 2 + a.immediate.length := by
  rw [Operand.encode_eq, List.length_append, bytesBE16_length]

/-- Operands take an even number of bytes, at most ten each. -/
theorem operandsEncode_length (as : List Operand) :
    (operandsEncode as).length % 2 = 0 ∧ (operandsEncode as).length ≤ 10 * as.length := by
  induction as with
  | nil => exact ⟨rfl, Nat.le_refl 0⟩
  | cons a as ih =>
    obtain ⟨heven, hle⟩ := immediate_length a
    simp only [operandsEncode_cons, List.length_append, Operand.encode_length, List.length_cons]
    omega

/-- The length rule at the first operand: its control structure tells how far it reaches. -/
theorem operandBytes_control (n : Nat) (a : Operand) (bs : List Byte) :
    operandBytes (n + 1) (bytesBE16 a.control ++ bs) =
      2 + a.immediate.length + operandBytes n (bs.drop a.immediate.length) := by
  obtain ⟨hreserved, hlength⟩ := control_length a
  simp only [bytesBE16, List.cons_append, List.nil_append, operandBytes, joinBytes, hreserved, hlength]
  rfl

/-- The bytes of operands are as many as the length rule says. -/
theorem operandBytes_encode (as : List Operand) : operandBytes as.length (operandsEncode as) = (operandsEncode as).length := by
  induction as with
  | nil => rfl
  | cons a as ih =>
    rw [operandsEncode_cons, Operand.encode_eq, List.append_assoc, List.length_cons, operandBytes_control,
      List.drop_left, ih]
    simp only [List.length_append, bytesBE16_length]
    omega

/-- Of the bytes of operands cut off anywhere, the length rule says that more are needed. -/
theorem operandBytes_take (as : List Operand) (m : Nat) (hm : m < (operandsEncode as).length) :
    m < operandBytes as.length ((operandsEncode as).take m) := by
  induction as generalizing m with
  | nil => exact absurd hm (Nat.not_lt_zero m)
  | cons a as ih =>
    match m with
    | 0 => exact Nat.zero_lt_two
    | 1 =>
      rw [operandsEncode_cons, Operand.encode_eq, List.append_assoc]
      exact Nat.one_lt_two
    | m + 2 =>
      rw [operandsEncode_cons, List.length_append, Operand.encode_length] at hm
      rw [operandsEncode_cons, Operand.encode_eq, List.append_assoc, List.length_cons]
      have htake : (bytesBE16 a.control ++ (a.immediate ++ operandsEncode as)).take (m + 2) =
          bytesBE16 a.control ++ (a.immediate ++ operandsEncode as).take m := rfl
      rw [htake, operandBytes_control, List.drop_take, List.drop_left]
      by_cases hin : m < a.immediate.length
      · omega
      · have := ih (m - a.immediate.length) (by omega)
        omega

/-! ### The shape of an encoding -/

/-- An opcode word, and what the length rule says follows it: operands, or that many further bytes. -/
inductive Shaped : List Byte → Prop
  | operands (op : BitVec 12) (h : BitVec 4) (as : List Operand) (htail : tailOf op h = .operands as.length)
      (hfew : as.length ≤ 3) : Shaped (opcodeWord op h ++ operandsEncode as)
  | raw (op : BitVec 12) (h : BitVec 4) (bs : List Byte) (htail : tailOf op h = .raw bs.length) (heven : bs.length % 2 = 0)
      (hfew : bs.length ≤ 8) : Shaped (opcodeWord op h ++ bs)

section
variable {op : BitVec 12} {h : BitVec 4}

theorem shaped_none (htail : tailOf op h = .operands 0) : Shaped (opcodeWord op h) :=
  .operands op h [] htail (Nat.zero_le 3)

theorem shaped_one (htail : tailOf op h = .operands 1) (a : Operand) : Shaped (opcodeWord op h ++ a.encode) := by
  have := Shaped.operands op h [a] htail (by decide : 1 ≤ 3)
  simpa using this

theorem shaped_two (htail : tailOf op h = .operands 2) (a b : Operand) :
    Shaped (opcodeWord op h ++ a.encode ++ b.encode) := by
  have := Shaped.operands op h [a, b] htail (by decide : 2 ≤ 3)
  simpa using this

theorem shaped_three (htail : tailOf op h = .operands 3) (a b c : Operand) :
    Shaped (opcodeWord op h ++ a.encode ++ b.encode ++ c.encode) := by
  have := Shaped.operands op h [a, b, c] htail (by decide : 3 ≤ 3)
  simpa using this

theorem shaped_imm {imm : Imm} (htail : tailOf op h = .raw imm.bytes) : Shaped (opcodeWord op h ++ imm.encode) :=
  .raw op h imm.encode (htail.trans (by rw [Imm.encode_length])) (by rw [Imm.encode_length]; exact imm.bytes_even)
    (by rw [Imm.encode_length]; exact imm.bytes_le)

theorem shaped_rep (htail : tailOf op h = .raw 2) (fo : Follower) : Shaped (opcodeWord op h ++ fo.encode) := by
  have hlength : fo.encode.length = 2 := by cases fo <;> rfl
  exact .raw op h fo.encode (htail.trans (by rw [hlength])) (by rw [hlength]) (by rw [hlength]; decide)

end

theorem machineSpecific_tail (lo : BitVec 5) (h : BitVec 4) : tailOf (0x7f#7 ++ lo) h = .operands 0 := by
  have hblock : (0x7f#7 ++ lo).extractLsb' 8 4 = 0xf#4 := by
    revert lo
    decide
  simp only [tailOf, hblock]
  rfl

/-- What follows the opcode word of a branch is the branches' own affair. -/
theorem tailOf_branch {op : BitVec 12} (hblock : op.extractLsb' 8 4 = 7#4) (h : BitVec 4) : tailOf op h = branchTail op h := by
  rw [tailOf, hblock]
  rfl

theorem encodeCond_shaped (cc : Cond) (rel : Bool) (weight : BitVec 4) (imm : Imm) :
    Shaped (encodeCond cc rel weight imm) := by
  obtain ⟨hblock, hss, -, hbit5, -, -⟩ := branchOp_fields imm.sizeBits rel cc.code
  refine shaped_imm ?_
  rw [tailOf_branch hblock, branchTail, hss, hbit5]
  cases imm <;> rfl

/-- An unconditional branch without an immediate. -/
theorem encodeUncond_shaped (rel : Bool) (oooo h : BitVec 4) (hnone : oooo.toNat ∉ [0, 1, 2, 11, 12]) :
    Shaped (encodeUncond rel oooo h) := by
  obtain ⟨hblock, hss, -, hbit5, -, hcode⟩ := branchOp_fields 3#2 rel oooo
  have htail : tailOf (7#4 ++ 3#2 ++ 0#1 ++ bit1 rel ++ oooo) h = .raw 0 := by
    simp only [List.mem_cons, List.not_mem_nil, or_false, not_or] at hnone
    obtain ⟨h0, h1, h2, h11, h12⟩ := hnone
    rw [tailOf_branch hblock, branchTail, hss, hbit5, hcode, if_neg (by decide), if_neg (by decide), if_neg (by decide),
      if_neg (by decide)]
    split
    case h_6 => rfl
    all_goals contradiction
  have := Shaped.raw _ h [] htail rfl (Nat.zero_le 8)
  rwa [List.append_nil] at this

/-- An unconditional branch with an immediate. -/
theorem encodeUncondImm_shaped (rel : Bool) {oooo : BitVec 4} (himm : oooo.toNat ∈ [0, 1, 2, 11, 12]) (v : Bool) (imm : Imm) :
    Shaped (encodeUncondImm rel oooo v imm) := by
  obtain ⟨hblock, hss, -, hbit5, -, hcode⟩ := branchOp_fields 3#2 rel oooo
  obtain ⟨-, -, -, hh⟩ := branchH_fields v imm.sizeBits
  refine shaped_imm ?_
  simp only [List.mem_cons, List.not_mem_nil, or_false] at himm
  obtain himm | himm | himm | himm | himm := himm <;>
    rw [tailOf_branch hblock, branchTail, hss, hbit5, hcode, himm, hh] <;> cases imm <;> rfl

theorem encode_shaped : ∀ i : Instr, Shaped (encode i)
  | .und000 _ | .undFff _ | .nop0 | .pushr _ | .popr _ | .pushgpr | .pushar | .popgpr | .popar | .bnotr _ | .negr _ | .fence
  | .scret | .reti | .halt | .pcfl | .flall | .mul _ _ | .imul _ _ | .div _ _ _ | .idiv _ _ _ | .bcpy _ | .bsto _ | .bsca _
  | .bcmp _ | .btst _ | .inp _ | .outp _ => shaped_none rfl
  | .machineSpecific lo h => shaped_none (machineSpecific_tail lo h)
  | .movrToGpr _ a | .movrFromGpr _ a | .lear _ a | .nop1 a | .push a | .pop a | .stogpr a | .stoar a | .rstogpr a | .rstoar a
  | .lshr _ a | .rshr _ a | .arshr _ a | .lshcr _ a | .rshcr _ a | .lrotr _ a | .rrotr _ a | .addrGprDst _ a
  | .subrGprDst _ a | .andrGprDst _ a | .orrGprDst _ a | .xorrGprDst _ a | .addrGprSrc _ a | .subrGprSrc _ a
  | .andrGprSrc _ a | .orrGprSrc _ a | .xorrGprSrc _ a | .cmpr _ a | .testr _ a | .dflush a | .iflush a | .storegf a
  | .rstregf a | .bnot _ _ a | .neg _ _ a => shaped_one rfl a
  | .mov a b | .lea a b | .nop2 a b | .cmp a b | .test a b | .xchg a b | .add _ _ a b | .sub _ _ a b | .and _ _ a b
  | .or _ _ a b | .xor _ _ a b | .lsh _ _ a b | .rsh _ _ a b | .arsh _ _ a b | .lshc _ _ a b | .rshc _ _ a b
  | .lrot _ _ a b | .rrot _ _ a b | .movsx _ a b | .bswap _ a b => shaped_two rfl a b
  | .nop3 a b c | .cmpxchg a b c | .wcmpxchg a b c => shaped_three rfl a b c
  | .repbi _ fo | .repbc _ fo => shaped_rep rfl fo
  | .jp16 .. | .jc16 .. | .jv16 .. | .jz16 .. | .jlt16 .. | .jle16 .. | .jbe16 .. | .jmi16 .. | .jpl16 .. | .ja16 ..
  | .jgt16 .. | .jge16 .. | .jnz16 .. | .jnv16 .. | .jnc16 .. | .jnp16 .. | .jp32 .. | .jc32 .. | .jv32 .. | .jz32 ..
  | .jlt32 .. | .jle32 .. | .jbe32 .. | .jmi32 .. | .jpl32 .. | .ja32 .. | .jgt32 .. | .jge32 .. | .jnz32 .. | .jnv32 ..
  | .jnc32 .. | .jnp32 .. | .jp64 .. | .jc64 .. | .jv64 .. | .jz64 .. | .jlt64 .. | .jle64 .. | .jbe64 .. | .jmi64 ..
  | .jpl64 .. | .ja64 .. | .jgt64 .. | .jge64 .. | .jnz64 .. | .jnv64 .. | .jnc64 .. | .jnp64 .. =>
    encodeCond_shaped _ _ _ _
  | .jmp rel imm | .call rel imm | .fcall rel imm | .jsm rel imm => encodeUncondImm_shaped rel (by decide) false imm
  | .callsm rel v imm => encodeUncondImm_shaped rel (by decide) v imm
  | .ijmp .. | .ret | .scall | .intr _ | .fret _ | .ifjmp _ | .icall _ _ | .ifcall _ | .retrsm =>
    encodeUncond_shaped _ _ _ (by decide)

/-! ### The length of an encoding (30 R183) -/

/-- An encoding has an even number of bytes, at least 2 and at most 32. -/
theorem Shaped.length {bs : List Byte} (hbs : Shaped bs) : bs.length % 2 = 0 ∧ 2 ≤ bs.length ∧ bs.length ≤ 32 := by
  cases hbs with
  | operands op h as htail hfew =>
    obtain ⟨heven, hle⟩ := operandsEncode_length as
    simp only [List.length_append, opcodeWord_length]
    omega
  | raw op h bs htail heven hfew =>
    simp only [List.length_append, opcodeWord_length]
    omega

section
variable {op : BitVec 12} {h : BitVec 4} {n : Nat} (bs : List Byte)

/-- The length rule where operands follow the opcode word. -/
theorem neededBytes_operands (htail : tailOf op h = .operands n) :
    neededBytes (opcodeWord op h ++ bs) = 2 + operandBytes n bs := by
  simp only [opcodeWord, List.cons_append, List.nil_append, neededBytes, opcodeOf_opcodeWord, hOf_opcodeWord, htail]

/-- The length rule where `n` further bytes follow the opcode word. -/
theorem neededBytes_raw (htail : tailOf op h = .raw n) : neededBytes (opcodeWord op h ++ bs) = 2 + n := by
  simp only [opcodeWord, List.cons_append, List.nil_append, neededBytes, opcodeOf_opcodeWord, hOf_opcodeWord, htail]

end

theorem Shaped.neededBytes_self {bs : List Byte} (hbs : Shaped bs) : neededBytes bs = bs.length := by
  cases hbs with
  | operands op h as htail hfew =>
    rw [neededBytes_operands _ htail, operandBytes_encode, List.length_append, opcodeWord_length]
  | raw op h bs htail heven hfew => rw [neededBytes_raw _ htail, List.length_append, opcodeWord_length]

/-- Bytes cut off anywhere tell the fetch to go on. -/
theorem Shaped.lt_neededBytes_take {bs : List Byte} (hbs : Shaped bs) {m : Nat} (hm : m < bs.length) :
    m < neededBytes (bs.take m) := by
  match m with
  | 0 => exact Nat.zero_lt_two
  | 1 => cases hbs <;> exact Nat.one_lt_two
  | m + 2 =>
    cases hbs with
    | operands op h as htail hfew =>
      rw [List.length_append, opcodeWord_length] at hm
      have htake : (opcodeWord op h ++ operandsEncode as).take (m + 2) = opcodeWord op h ++ (operandsEncode as).take m := rfl
      have hneeded := operandBytes_take as m (by omega)
      rw [htake, neededBytes_operands _ htail]
      omega
    | raw op h bs htail heven hfew =>
      rw [List.length_append, opcodeWord_length] at hm
      have htake : (opcodeWord op h ++ bs).take (m + 2) = opcodeWord op h ++ bs.take m := rfl
      rw [htake, neededBytes_raw _ htail]
      omega

end Sys2Proof

namespace Sys2Proof.Machine

/-! ### Fetching an encoding -/

/-- Where the units from `s.ip` on are those of `bs`, the fetch, having read `k` units, reads the rest. -/
theorem fetchFrom_of_units {s : State} {bs : List Byte} (hbs : Shaped bs)
    (hunits : ∀ k, 2 * k < bs.length → fetchUnit s (s.ip + BitVec.ofNat 64 (2 * k)) = .ok ((bs.drop (2 * k)).take 2))
    (fuel k : Nat) (hk : 2 * k ≤ bs.length) (hfuel : bs.length ≤ 2 * (k + fuel)) :
    fetchFrom s fuel (s.ip + BitVec.ofNat 64 (2 * k)) (bs.take (2 * k)) = .ok bs := by
  induction fuel generalizing k with
  | zero => rw [fetchFrom, List.take_of_length_le (by omega)]
  | succ fuel ih =>
    obtain ⟨heven, -, -⟩ := hbs.length
    obtain hend | hgo := Nat.eq_or_lt_of_le hk
    · rw [fetchFrom, hend, List.take_length, if_pos (Nat.le_of_eq hbs.neededBytes_self)]
    · have hmore : ¬ neededBytes (bs.take (2 * k)) ≤ (bs.take (2 * k)).length := by
        rw [List.length_take_of_le hk]
        exact Nat.not_le.2 (hbs.lt_neededBytes_take hgo)
      have hnext : s.ip + BitVec.ofNat 64 (2 * k) + 2 = s.ip + BitVec.ofNat 64 (2 * (k + 1)) := by
        rw [BitVec.add_assoc, Nat.mul_add, BitVec.ofNat_add]
        rfl
      rw [fetchFrom, if_neg hmore, hunits k hgo, bind_ok, hnext, ← List.take_add]
      exact ih (k + 1) (by omega) (by omega)

end Sys2Proof.Machine
end

section
/-!
The step that runs the instruction its fetch reads: O5.
-/

namespace Sys2Proof.Machine

/-! ### The fetch of an encoding -/

theorem fetchUnits_ok {s : State} (n : Nat) (va : Word)
    (h : ∀ k, k < n → ∃ u, fetchUnit s (va + BitVec.ofNat 64 (2 * k)) = .ok u) : fetchUnits s n va = .ok () := by
  induction n generalizing va with
  | zero => rfl
  | succ n ih =>
    obtain ⟨u, hu⟩ := h 0 (Nat.succ_pos n)
    have hfirst : fetchUnit s va = .ok u := by simpa using hu
    rw [fetchUnits, hfirst, bind_ok]
    refine ih (va + 2) fun k hk => ?_
    obtain ⟨w, hw⟩ := h (k + 1) (Nat.succ_lt_succ hk)
    have hnext : va + 2 + BitVec.ofNat 64 (2 * k) = va + BitVec.ofNat 64 (2 * (k + 1)) := by
      rw [BitVec.add_assoc, Nat.mul_add, Nat.add_comm, BitVec.ofNat_add]
      rfl
    exact ⟨w, hnext ▸ hw⟩

section
variable {s : State} {i : Instr}

/-- Where the units from `ip` on are the bytes of a well-formed instruction, the fetch gives that instruction. -/
theorem fetchDecode_encode (haligned : IpAligned s) (hwf : WellFormed i = true)
    (hunits : ∀ k, 2 * k < (encode i).length →
      fetchUnit s (s.ip + BitVec.ofNat 64 (2 * k)) = .ok (((encode i).drop (2 * k)).take 2))
    (hmore : ∀ k, k < machineUnits s i → ∃ u, fetchUnit s (s.ip + BitVec.ofNat 64 ((encode i).length + 2 * k)) = .ok u) :
    fetchDecode s = .ok i := by
  obtain ⟨-, -, hlong⟩ := (encode_shaped i).length
  have hfetch : fetchFrom s 16 s.ip [] = .ok (encode i) := by
    have := fetchFrom_of_units (encode_shaped i) hunits 16 0 (Nat.zero_le _) hlong
    simpa using this
  have hdecode : decode (encode i) = .ok (i, []) := by
    have := decode_encode_append hwf []
    rwa [List.append_nil] at this
  have hunitsMore : fetchUnits s (machineUnits s i) (nextAfter s (encode i).length) = .ok () := by
    refine fetchUnits_ok _ _ fun k hk => ?_
    obtain ⟨u, hu⟩ := hmore k hk
    rw [BitVec.ofNat_add, ← BitVec.add_assoc] at hu
    exact ⟨u, hu⟩
  have heven : s.ip.getLsbD 0 = false := haligned
  simp only [fetchDecode, heven, Bool.not_false, require_true, bind_ok, hfetch, hdecode, hunitsMore]

/-- The step at which nothing is pending runs the instruction the fetch gives. -/
theorem step_of_fetchDecode (hpending : pendingDelivery s = none) (hhalted : s.halted = false) (hfetch : fetchDecode s = .ok i) :
    step s = tickOutcome (checkMapping s (instrEnd s i) (accessEffects s i (exec i s))) := by
  simp only [step, hpending, hhalted, runInstruction, hfetch]
  rfl

/-! ### What the step answers -/

theorem tickOutcome_checkMapping_next {t : State} {next : Word} (h : mayContinue s t next = true) :
    tickOutcome (checkMapping s next (.next t)) = .next { t with freeCtr := t.freeCtr + 1 } := by
  rw [checkMapping_of_mayContinue h]
  rfl

theorem tickOutcome_checkMapping_stop {t : State} {next : Word} (h : mayContinue s t next = false) :
    tickOutcome (checkMapping s next (.next t)) = .fault .mappingChanged := by
  simp only [checkMapping, h]
  rfl

/-- Where paging stays off, the CPU was reset, or nothing that decides a mapping changed, the machine goes on. -/
theorem mayContinue_of {t : State} (next : Word)
    (h : (pagingOn s.cr0 = false ∧ pagingOn t.cr0 = false) ∨ t = resetCpu t ∨
      (t.cr0 = s.cr0 ∧ t.page = s.page ∧ t.mem = s.mem ∧ t.cfg = s.cfg)) : mayContinue s t next = true := by
  rw [mayContinue, Bool.or_eq_true, beq_iff_eq]
  obtain ⟨hs, ht⟩ | hreset | ⟨hcr0, hpage, hmem, hcfg⟩ := h
  · exact .inl (keepsOwnMapping_of_off hs ht next)
  · exact .inr hreset
  · exact .inl (keepsOwnMapping_of_same hcr0 hpage hmem hcfg next)

/-- With the same PTL and no flag in `page`, an address that is mapped elsewhere is not kept mapped. -/
theorem keepsMapping_eq_false {old new : State} {va : Word} (hon : pagingOn old.cr0 = true)
    (hptl : ptlBits new.cr0 = ptlBits old.cr0) (hflag : pageFlagged new = false) (hmap : mappedTo new va ≠ mappedTo old va) :
    keepsMapping old new va = false := by
  have hsame : sameMappingAs old new va = false := by
    simp only [sameMappingAs, hon, Bool.true_or, Bool.not_true, Bool.false_or, beq_eq_false_iff_ne]
    exact hmap
  have hold : { old with cr0 := withPtlOf old.cr0 new.cr0 } = old := by rw [withPtlOf_same hptl.symm]
  simp only [keepsMapping, hflag, hold, hsame, Bool.or_false, Bool.false_and]

theorem mayContinue_eq_false {t : State} (next : Word) (hon : pagingOn s.cr0 = true) (hbrCr0 : s.brCr0 = s.cr0)
    (hbrPage : s.brPage = s.page) (hbrMem : s.brMem = s.mem) (hptl : ptlBits t.cr0 = ptlBits s.cr0)
    (hflag : pagingOn t.cr0 = false ∨ t.page.extractLsb' 0 12 = 0#12) (hreset : t ≠ resetCpu t)
    (hmap : mappedTo t s.ip ≠ mappedTo s s.ip) : mayContinue s t next = false := by
  have hflagged : pageFlagged t = false := by
    rw [pageFlagged, Bool.and_eq_false_iff]
    exact hflag.imp_right fun h => by rw [h]; rfl
  have hbranch : mappedTo (atBranch s) s.ip = mappedTo s s.ip :=
    mappedTo_congr (s := s) (t := atBranch s) hbrCr0 hbrPage hbrMem rfl s.ip
  have hnow : keepsMapping s t s.ip = false := keepsMapping_eq_false hon hptl hflagged hmap
  have hthen : keepsMapping (atBranch s) t s.ip = false :=
    keepsMapping_eq_false (by rwa [← hbrCr0] at hon) (by rw [hptl, ← hbrCr0]; rfl) hflagged (by rwa [hbranch])
  simp only [mayContinue, keepsOwnMapping, keepsExecuted, hnow, hthen, Bool.or_false, Bool.false_and, Bool.false_or,
    beq_eq_false_iff_ne]
  exact hreset

/-! ### Side effects of machine-specific registers (10 R68, log 15) -/

theorem isMsrOperand_iff (a : Operand) : isMsrOperand a = true ↔ ∃ sz r, a = .reg sz r ∧ 148 ≤ r.toNat ∧ r.toNat ≤ 154 := by
  cases a with
  | reg sz r => simp [isMsrOperand, isMsr_iff]
  | ind | short | long | mref => simp [isMsrOperand]

theorem any_isMsrOperand_iff (as : List Operand) :
    as.any isMsrOperand = true ↔ ∃ sz r, .reg sz r ∈ as ∧ 148 ≤ r.toNat ∧ r.toNat ≤ 154 := by
  rw [List.any_eq_true]
  constructor
  · rintro ⟨a, ha, hmsr⟩
    obtain ⟨sz, r, rfl, hr⟩ := (isMsrOperand_iff a).1 hmsr
    exact ⟨sz, r, ha, hr⟩
  · rintro ⟨sz, r, ha, hr⟩
    exact ⟨_, ha, (isMsrOperand_iff _).2 ⟨sz, r, rfl, hr⟩⟩

theorem accessesMsr_iff (s : State) (i : Instr) :
    accessesMsr s i = true ↔ s.xm = false ∧ s.cfg.msrBehaviour = .machine ∧
      ((∃ a, i = .storegf a) ∨ (∃ a, i = .rstregf a) ∨
        ∃ sz r, .reg sz r ∈ operandsOf i ∧ 148 ≤ r.toNat ∧ r.toNat ≤ 154) := by
  unfold accessesMsr
  rw [Bool.and_eq_true, Bool.and_eq_true, Bool.not_eq_true', beq_iff_eq, and_assoc, and_congr_right_iff]
  refine fun _ => and_congr_right fun _ => ?_
  split
  · next a => exact iff_of_true rfl (.inl ⟨a, rfl⟩)
  · next a => exact iff_of_true rfl (.inr (.inl ⟨a, rfl⟩))
  · next hsto hrst =>
    rw [any_isMsrOperand_iff]
    constructor
    · exact fun h => .inr (.inr h)
    · rintro (⟨a, rfl⟩ | ⟨a, rfl⟩ | h)
      · exact absurd rfl (hsto a)
      · exact absurd rfl (hrst a)
      · exact h

theorem accessEffects_ok {t : State} {e : MachineEffect} (h : accessesMsr s i = true) (he : Config.msrEffect s t = .ok e) :
    accessEffects s i (.next t) = finish s (machineApply t t.ip e) := by
  simp only [accessEffects, h, if_true, he]

theorem accessEffects_error {t : State} {x : Exc} (h : accessesMsr s i = true) (hx : Config.msrEffect s t = .error x) :
    accessEffects s i (.next t) = .next (takeException s x) := by
  simp only [accessEffects, h, if_true, hx]
  rfl

end

/-- Settles O5: the fetch gives the instruction whose bytes it reads, and the step checks the mapping of its page after it. -/
theorem stepRunsDecoded : Obligations.StepRunsDecoded := by
  intro s i hpending hhalted haligned hwf hunits hmore
  have hstep := step_of_fetchDecode hpending hhalted (fetchDecode_encode haligned hwf hunits hmore)
  refine ⟨?_, accessesMsr_iff s i, fun h => accessEffects_of_not h _, fun h t ht => ?_, fun t ht => ⟨?_, ?_⟩⟩
  · rw [hstep]
    cases accessEffects s i (exec i s) with
    | next t =>
      cases hgo : mayContinue s t (instrEnd s i) with
      | true => exact (tickOutcome_checkMapping_next hgo).trans (if_pos hgo).symm
      | false => exact (tickOutcome_checkMapping_stop hgo).trans (if_neg (Bool.eq_false_iff.1 hgo)).symm
    | fault f => rfl
    | refused r => rfl
  · rw [ht]
    cases he : Config.msrEffect s t with
    | ok e => exact accessEffects_ok h he
    | error x => exact accessEffects_error h he
  · intro h
    rw [hstep, ht, tickOutcome_checkMapping_next (mayContinue_of _ h)]
  · intro hon hbrCr0 hbrPage hbrMem hptl hflag hreset hmap
    rw [hstep, ht, tickOutcome_checkMapping_stop (mayContinue_eq_false _ hon hbrCr0 hbrPage hbrMem hptl hflag hreset hmap)]

end Sys2Proof.Machine
end

section
/-!
Memory and the addresses of an access: stored bytes read back, which byte's fault an access reports, what a fetch sees, where the fault
information goes: O6, O17, O22, O23.
-/

namespace Sys2Proof.Machine

/-! ### Stored values (20 R100) -/

/-- The low bytes of a value are those of its first bytes in memory. -/
theorem take_bytesLE {k n : Nat} (h : k ≤ n) (v : Nat) : (bytesLE n v).take k = bytesLE k v := by
  induction n generalizing k v with
  | zero => rw [Nat.le_zero.1 h, bytesLE, List.take_nil]
  | succ n ih =>
    cases k with
    | zero => rfl
    | succ k => rw [bytesLE, bytesLE, List.take_succ_cons, ih (Nat.le_of_succ_le_succ h)]

theorem readBytes_take (m : Memory) (ps : List Nat) (k : Nat) : m.readBytes (ps.take k) = (m.readBytes ps).take k := List.map_take

/-- The first `k` bytes of a stored value load as its low `8*k` bits. -/
theorem readValue_writeBytes_take (m : Memory) {ps : List Nat} (v : Word) {k : Nat} (hps : ps.Nodup) (hlen : ps.length ≤ 8)
    (hk : k ≤ ps.length) :
    ((m.writeBytes ps (bytesLE ps.length v.toNat)).readValue (ps.take k)).toNat = v.toNat % 2 ^ (8 * k) := by
  have hshort : (ps.take k).length ≤ 8 := (List.length_take_le k ps).trans (hk.trans hlen)
  rw [readValue_toNat _ hshort, readBytes_take, readBytes_writeBytes_same ps _ _ hps (bytesLE_length _ _), take_bytesLE hk,
    valueLE_bytesLE, Nat.pow_mul]

/-- Settles O23: what is stored at distinct addresses reads back, and the first bytes of a value are its low ones. -/
theorem storeThenLoad : Obligations.StoreThenLoad :=
  ⟨fun m ps v _ hps hlen hk => ⟨readValue_writeBytes_take m v hps hlen hk, read_writeBytes_other ps m _⟩,
    fun m ps bs hps hlen => ⟨readBytes_writeBytes_same ps m bs hps hlen, read_writeBytes_other ps m bs⟩⟩

/-! ### The addresses and the fault of an access (20 R150) -/

section
variable {s : State} {xm : Bool} {k : Access} {va : Word} {n : Nat}

theorem byte_succ (va : Word) (j : Nat) : va + 1 + BitVec.ofNat 64 j = va + BitVec.ofNat 64 (j + 1) := by
  rw [BitVec.ofNat_add, BitVec.add_comm (BitVec.ofNat 64 j), ← BitVec.add_assoc]
  rfl

/-- The bytes of an access are at the page offsets that follow its first. -/
theorem translateAll_getElem_offset {ps : List Nat} (h : translateAll s xm k va n = .ok ps) (i : Nat) (hi : i < ps.length) :
    ps[i] % 4096 = (va.toNat + i) % 4096 := by
  have := List.getElem_of_eq (translateAll_offsets h) (i := i) (by simpa using hi)
  simpa using this

/-- An access faults in its first byte, or in the others after the first is translated. -/
theorem translateAll_succ_error_iff {e : Trap} :
    translateAll s xm k va (n + 1) = .error e ↔
      translate s xm k va = .error e ∨ (∃ p, translate s xm k va = .ok p) ∧ translateAll s xm k (va + 1) n = .error e := by
  rw [translateAll]
  cases translate s xm k va with
  | error x => simp
  | ok p => cases translateAll s xm k (va + 1) n <;> simp

/-- An access faults with the lowest of its bytes that does. -/
theorem translateAll_error_iff {e : Trap} :
    translateAll s xm k va n = .error e ↔
      ∃ j < n, translate s xm k (va + BitVec.ofNat 64 j) = .error e ∧
        ∀ i < j, ∃ p, translate s xm k (va + BitVec.ofNat 64 i) = .ok p := by
  induction n generalizing va with
  | zero => simp [translateAll]
  | succ n ih =>
    rw [translateAll_succ_error_iff, ih]
    simp only [byte_succ]
    constructor
    · rintro (hfirst | ⟨hfirst, j, hj, herr, hbelow⟩)
      · exact ⟨0, Nat.succ_pos n, by simpa using hfirst, fun i hi => absurd hi (Nat.not_lt_zero i)⟩
      · refine ⟨j + 1, Nat.succ_lt_succ hj, herr, fun i hi => ?_⟩
        cases i with
        | zero => simpa using hfirst
        | succ i => exact hbelow i (Nat.lt_of_succ_lt_succ hi)
    · rintro ⟨j, hj, herr, hbelow⟩
      cases j with
      | zero => exact .inl (by simpa using herr)
      | succ j =>
        refine .inr ⟨by simpa using hbelow 0 (Nat.succ_pos j), j, Nat.lt_of_succ_lt_succ hj, herr, fun i hi => ?_⟩
        exact hbelow (i + 1) (Nat.succ_lt_succ hi)

end

/-- Settles O22: the page offsets tell the bytes of an access apart, and the lowest failing byte gives its fault. -/
theorem accessAddresses : Obligations.AccessAddresses :=
  ⟨fun _ _ _ _ _ _ hn h => ⟨translateAll_length h, translateAll_nodup hn h, translateAll_getElem_offset h⟩,
    fun _ _ _ _ _ _ => translateAll_error_iff⟩

/-! ### What a fetch sees (20 R121) -/

/-- A fetched unit is what memory holds or, both bytes alike, what the instruction cache may still hold. -/
theorem fetchedBytes_cases (s : State) (ps : List Nat) :
    fetchedBytes s ps = s.mem.readBytes ps ∨ fetchedBytes s ps = s.imem.readBytes ps := by
  rw [fetchedBytes]
  by_cases hsame : s.mem.readBytes ps = s.imem.readBytes ps
  · exact .inl (if_pos hsame)
  · rw [if_neg hsame]
    exact (ite_eq_or_eq _ _ _).symm

theorem fetchedBytes_syncCode (s : State) (ps : List Nat) : fetchedBytes (syncCode s) ps = s.mem.readBytes ps := if_pos rfl

/-- With paging off a fetch reads the two bytes at its own address (20 R150, R151). -/
theorem fetchUnit_off {s : State} {va : Word} (hoff : pagingOn s.cr0 = false) (hbr : pagingOn s.brCr0 = false)
    (hr : physInRange s.cfg va = true) (hp : present s.cfg va = true) (hr' : physInRange s.cfg (va + 1) = true)
    (hp' : present s.cfg (va + 1) = true) : fetchUnit s va = .ok (fetchedBytes s [va.toNat, (va + 1).toNat]) := by
  have hmap : sameMapping s va = true := by simp [sameMapping, keepsMapping, sameMappingAs, atBranch, hoff, hbr]
  have hfirst : translate s s.xm .fetch va = .ok va.toNat := (translate_physical_ok_iff hoff).2 ⟨hr, hp, rfl⟩
  have hsecond : translate s s.xm .fetch (va + 1) = .ok (va + 1).toNat := (translate_physical_ok_iff hoff).2 ⟨hr', hp', rfl⟩
  simp only [fetchUnit, hmap, require_true, bind_ok, translateAll, hfirst, hsecond]

/-- Settles O6: with paging off the two addresses are their own translation, before a synchronisation and after it. -/
theorem fetchOldOrNew : Obligations.FetchOldOrNew := by
  intro s va hoff hbr hr hp hr' hp' ps
  have hfetch : fetchUnit s va = .ok (fetchedBytes s ps) := fetchUnit_off hoff hbr hr hp hr' hp'
  have hsynced : fetchUnit (syncCode s) va = .ok (fetchedBytes (syncCode s) ps) :=
    fetchUnit_off (s := syncCode s) hoff hbr hr hp hr' hp'
  rw [hfetch, hsynced, fetchedBytes_syncCode]
  exact ⟨(fetchedBytes_cases s ps).imp (congrArg _) (congrArg _), rfl⟩

/-! ### The fault information (20 R152) -/

theorem translateAll_withFcode (s : State) (f : Word) (xm : Bool) (k : Access) (va : Word) (n : Nat) :
    translateAll { s with fcode := f } xm k va n = translateAll s xm k va n := by
  have h : translate { s with fcode := f } = translate s := translate_congr rfl rfl rfl rfl rfl rfl rfl
  induction n generalizing va with
  | zero => rfl
  | succ n ih => simp only [translateAll, ih, h]

theorem faultInfoBytes_length (i : PageFaultInfo) : (faultInfoBytes i).length = 16 := by simp [faultInfoBytes]

section
variable {s : State} {i : PageFaultInfo}

theorem writeFaultInfo_none (h : s.pfcharp = 0) : writeFaultInfo s i = some s := if_pos h

theorem writeFaultInfo_stored {ps : List Nat} (h : s.pfcharp ≠ 0) (ha : s.pfcharp.extractLsb' 0 4 = 0#4)
    (hps : translateAll s false .write s.pfcharp 16 = .ok ps) :
    writeFaultInfo s i = some { s with mem := s.mem.writeBytes ps (faultInfoBytes i) } := by
  rw [writeFaultInfo, if_neg h, if_pos ha, hps]

theorem writeFaultInfo_failed (h : s.pfcharp ≠ 0)
    (hbad : s.pfcharp.extractLsb' 0 4 ≠ 0#4 ∨ ∃ e, translateAll s false .write s.pfcharp 16 = .error e) :
    writeFaultInfo s i = none := by
  rw [writeFaultInfo, if_neg h]
  split
  · next ha =>
    obtain ⟨e, he⟩ := hbad.resolve_left (not_not.2 ha)
    rw [he]
  · rfl

/-- A page fault whose information is written is delivered through its vector (60 R534). -/
theorem takeException_pf_written {t : State} (h : writeFaultInfo { s with fcode := i.fcode } i = some t) :
    takeException s (.pf i) = deliverException t 3 s.ip := by
  rw [takeException, h]

theorem takeException_pf_abort (h : writeFaultInfo { s with fcode := i.fcode } i = none) :
    takeException s (.pf i) = deliverAbort { s with fcode := i.fcode } := by
  rw [takeException, h]
  rfl

end

/-- Settles O17: the three answers of `writeFaultInfo`. -/
theorem faultInformation : Obligations.FaultInformation := by
  refine fun s i => ⟨fun h => ?none, fun ps h ha hps => ?stored, fun h hbad => ?failed⟩
  case none => exact takeException_pf_written (writeFaultInfo_none h)
  case stored =>
    rw [← translateAll_withFcode s i.fcode] at hps
    have hlen : (faultInfoBytes i).length = ps.length := by rw [faultInfoBytes_length, translateAll_length hps]
    exact ⟨_, takeException_pf_written (writeFaultInfo_stored h ha hps),
      readBytes_writeBytes_same ps _ _ (translateAll_nodup (by decide) hps) hlen, read_writeBytes_other ps _ _⟩
  case failed =>
    simp only [← translateAll_withFcode s i.fcode] at hbad
    exact takeException_pf_abort (writeFaultInfo_failed h hbad)

end Sys2Proof.Machine
end

section
/-!
Address translation: the ranges of addresses, one step of a walk, what a whole walk finds, the rights of the page, and O20, O21.
-/

namespace Sys2Proof.Machine

/-! ### Faults and ranges (20 R131, R132, R152) -/

/-- A page fault with XM and XMM written after the other status flags. -/
theorem pageFault_eq (xm : Bool) (va pref : Word) (plevel : Nat) (kind : Byte) (flags : BitVec 16) :
    pageFault xm va pref plevel kind flags = .exc (.pf
      { fcode := va, pref := pref, plevel := BitVec.ofNat 8 plevel, kind := kind, status := flags ||| if xm then 0x0003 else 0 }) := by
  rw [pageFault, BitVec.or_comm]
  rfl

theorem physInRange_iff (cfg : Params) (a : Word) : physInRange cfg a = true ↔ a.toNat < 2 ^ (32 + 4 * cfg.pas.toNat) :=
  decide_eq_true_iff

/-- The first 64 KiB are present (20 R133). -/
theorem present_low (cfg : Params) {a : Word} (h : a.toNat < 0x10000) : present cfg a = true := by
  rw [present, decide_eq_true h, Bool.true_or]

section
variable {s : State} (hoff : pagingOn s.cr0 = false) (xm : Bool) (k : Access) {a : Word}
include hoff

theorem translate_off : translate s xm k a = translatePhysical s xm k a := if_neg (Bool.eq_false_iff.1 hoff)

theorem translate_off_outside (hr : physInRange s.cfg a = false) : translate s xm k a = .error (pageFault xm a 0 0 k.code 0x0600) := by
  rw [translate_off hoff, translatePhysical, hr, require_false, bind_error]

theorem translate_off_absent (hr : physInRange s.cfg a = true) (hp : present s.cfg a = false) :
    translate s xm k a = .error (pageFault xm a 0 0 0xff 0x0400) := by
  rw [translate_off hoff, translatePhysical, hr, require_true, bind_ok, hp, require_false, bind_error]

end

section
variable {s : State} (hon : pagingOn s.cr0 = true) (xm : Bool) (k : Access) {va : Word}
include hon

theorem translate_on : translate s xm k va = translateVirtual s xm k va := if_pos hon

theorem translate_on_outside (hr : virtInRange (ptlOf s.cr0) va = false) :
    translate s xm k va = .error (pageFault xm va 0 0 k.code 0x0200) := by
  rw [translate_on hon, translateVirtual, hr, require_false, bind_error]

theorem translate_on_flagged (hr : virtInRange (ptlOf s.cr0) va = true) (hpage : s.page.extractLsb' 0 12 ≠ 0#12) :
    translate s xm k va = .error (pageFault xm va s.page (topLevel (ptlOf s.cr0)) k.code 0x0100) := by
  rw [translate_on hon, translateVirtual, hr, require_true, bind_ok, beq_eq_false_iff_ne.2 hpage, require_false, bind_error]

end

/-- The low `d` bits of a value as a signed integer (00 R12). -/
theorem toInt_sext {d : Nat} (hd : d ≤ 64) (v : Word) : (sext d v).toInt = v.toInt.bmod (2 ^ d) := by
  rw [sext, BitVec.toInt_signExtend_of_le hd, BitVec.toInt_setWidth, BitVec.toInt_eq_toNat_bmod v,
    Int.bmod_bmod_of_dvd (Nat.pow_dvd_pow 2 hd)]

/-- A virtual address of `d + 1` bits is in range where the signed integer fits them (20 R132). -/
theorem virtInRange_iff {ptl d : Nat} (hw : virtWidth ptl = d + 1) (hd : d < 64) (va : Word) :
    virtInRange ptl va = true ↔ -(2 ^ d : Int) ≤ va.toInt ∧ va.toInt < 2 ^ d := by
  rw [virtInRange, hw, beq_iff_eq, ← BitVec.toInt_inj, toInt_sext hd, Int.bmod_eq_iff (Nat.two_pow_pos _), Int.sub_self]
  have hpow : ((2 ^ (d + 1) : Nat) : Int) = 2 * 2 ^ d := by push_cast; exact pow_succ' 2 d
  have hzero : ((2 ^ (d + 1) : Nat) : Int) ∣ 0 := Int.dvd_zero _
  generalize (2 : Int) ^ d = m at hpow ⊢
  simp only [hzero, and_true]
  omega

/-- Settles O20: the checks of a physical address in order, and each width of virtual addresses as a range of signed integers. -/
theorem addressRanges : Obligations.AddressRanges := by
  refine ⟨fun s xm k a hoff => ⟨fun hr => ?outside, fun hr hp => ?absent, fun hr hp => ?ok, present_low s.cfg⟩,
    fun s xm k va hon hr => ?virtual, fun va => ⟨?_, ?_, ?_, ?_, ?_⟩⟩
  case outside =>
    rw [translate_off_outside hoff xm k (Bool.eq_false_iff.2 fun h => hr ((physInRange_iff _ _).1 h)), pageFault_eq]
    rfl
  case absent =>
    rw [translate_off_absent hoff xm k ((physInRange_iff _ _).2 hr) hp, pageFault_eq]
    rfl
  case ok => exact (translate_physical_ok_iff hoff).2 ⟨(physInRange_iff _ _).2 hr, hp, rfl⟩
  case virtual =>
    rw [translate_on_outside hon xm k hr, pageFault_eq]
    rfl
  · exact virtInRange_iff (ptl := 0) (d := 31) rfl (by decide) va
  · exact virtInRange_iff (ptl := 1) (d := 35) rfl (by decide) va
  · exact virtInRange_iff (ptl := 2) (d := 47) rfl (by decide) va
  · exact virtInRange_iff (ptl := 3) (d := 55) rfl (by decide) va
  · refine (virtInRange_iff (ptl := 4) (d := 63) rfl (by decide) va).2 ⟨BitVec.le_toInt va, BitVec.toInt_lt⟩

/-! ### The checks of an entry (20 R142, R144, R147) -/

/-- NESTED, set where `n` further levels remain below (20 R152). -/
def nestedFlag (n : Nat) : BitVec 16 := if n = 0 then 0 else 0x1000

/-- Has an entry above `n` further levels bits that it may not have: reserved ones, XM without XMM, or a PERM that only a page has? -/
abbrev EntryBad (n : Nat) (e : Word) : Prop :=
  e.extractLsb' 5 5 ≠ 0#5 ∨ e.getLsbD 2 ≠ e.getLsbD 3 ∨ (n ≠ 0 ∧ 2 ≤ (e.extractLsb' 0 2).toNat)

/-- An entry above `n` further levels, once it is read, and the fault of its checks. -/
def checkedEntry (xm : Bool) (k : Access) (va : Word) (n : Nat) (e : Word) : Except Trap Word :=
  if EntryBad n e then .error (pageFault xm va e n k.code (0x0100 ||| nestedFlag n))
  else if e.extractLsb' 0 2 = 0#2 then .error (pageFault xm va e n k.code (nestedFlag n))
  else .ok e

theorem entryValid_iff (e : Word) : entryValid e = true ↔ e.extractLsb' 5 5 = 0#5 ∧ e.getLsbD 2 = e.getLsbD 3 := by
  rw [entryValid, Bool.and_eq_true, beq_iff_eq, beq_iff_eq]

theorem entryPerm_eq_iff (e : Word) (p : BitVec 2) : entryPerm e = p.toNat ↔ e.extractLsb' 0 2 = p := BitVec.toNat_inj

theorem entryBad_iff (n : Nat) (e : Word) :
    EntryBad n e ↔ ¬ (entryValid e = true ∧ (decide (n + 1 ≤ 1) || decide (entryPerm e < 2)) = true) := by
  rw [entryValid_iff, Bool.or_eq_true, decide_eq_true_iff, decide_eq_true_iff, entryPerm]
  grind

theorem nestedFlag_eq (n : Nat) : (if n + 1 > 1 then 0x1000 else 0) = nestedFlag n := by
  cases n with
  | zero => rfl
  | succ n => exact if_pos (by omega)

/-- The checks of an entry in the order of 20 R147. -/
theorem checkedEntry_eq (xm : Bool) (k : Access) (va : Word) (n : Nat) (e : Word) :
    checkedEntry xm k va n e = (do
      require (entryValid e) (pageFault xm va e n k.code (0x0100 ||| nestedFlag n))
      require (decide (n + 1 ≤ 1) || decide (entryPerm e < 2)) (pageFault xm va e n k.code (0x0100 ||| nestedFlag n))
      require (entryPerm e != 0) (pageFault xm va e n k.code (nestedFlag n))
      .ok e) := by
  have hbad := entryBad_iff n e
  have hempty : (entryPerm e != 0) = true ↔ ¬ e.extractLsb' 0 2 = 0#2 := bne_iff_ne.trans (not_congr (entryPerm_eq_iff e 0#2))
  unfold checkedEntry
  generalize entryValid e = valid at *
  generalize (decide (n + 1 ≤ 1) || decide (entryPerm e < 2)) = level at *
  generalize (entryPerm e != 0) = mapped at *
  cases valid with
  | false => exact if_pos (hbad.2 nofun)
  | true =>
    cases level with
    | false => exact if_pos (hbad.2 nofun)
    | true =>
      rw [if_neg fun h => hbad.1 h ⟨rfl, rfl⟩]
      cases mapped with
      | false => exact if_pos (by simpa using hempty)
      | true => exact if_neg (hempty.1 rfl)

/-- An entry that passes its checks is not EMPTY. -/
theorem checkedEntry_ok {xm : Bool} {k : Access} {va : Word} {n : Nat} {e e' : Word} (h : checkedEntry xm k va n e = .ok e') :
    entryPerm e' ≠ 0 := by
  unfold checkedEntry at h
  split at h
  · cases h
  · split at h
    · cases h
    · next hperm =>
      obtain rfl := Except.ok.inj h
      exact fun h0 => hperm ((entryPerm_eq_iff e 0).1 h0)

/-! ### One step of a walk (20 R141, R147) -/

/-- The address of the entry that `va` selects in the level-`k` table (20 R141). -/
def entryAt (table : Word) (ptl k : Nat) (va : Word) : Word := table + BitVec.ofNat 64 (8 * levelIndex ptl k va)

/-- A walk sees the entry as it is in memory, or as the page caches may still hold it (20 R126). -/
theorem walkEntry_cases (s : State) (a : Word) :
    walkEntry s a = s.mem.readValue (eightBytes a) ∨ walkEntry s a = s.wmem.readValue (eightBytes a) := by
  rw [walkEntry]
  by_cases hsame : s.mem.readValue (eightBytes a) = s.wmem.readValue (eightBytes a)
  · exact .inl (if_pos hsame)
  · rw [if_neg hsame]
    exact (ite_eq_or_eq _ _ _).symm

section
variable (s : State) (xm : Bool) (k : Access) (va table : Word) (ptl n : Nat)

/-- A walk step checks where the entry is, then the entry. -/
theorem walkStep_eq :
    walkStep s xm k va table ptl (n + 1) = (do
      require (physInRange s.cfg (entryAt table ptl (n + 1) va + 7)) (pageFault xm va 0 0 k.code 0x0300)
      require ((List.range 8).all fun i => present s.cfg (entryAt table ptl (n + 1) va + BitVec.ofNat 64 i))
        (pageFault xm va 0 0 0xff 0)
      checkedEntry xm k va n (walkEntry s (entryAt table ptl (n + 1) va))) := by
  simp only [walkStep, entryAt, checkedEntry_eq, nestedFlag_eq, Nat.add_sub_cancel]

theorem walkStep_outside (hr : physInRange s.cfg (entryAt table ptl (n + 1) va + 7) = false) :
    walkStep s xm k va table ptl (n + 1) = .error (pageFault xm va 0 0 k.code 0x0300) := by
  rw [walkStep_eq, hr, require_false, bind_error]

theorem walkStep_absent (hr : physInRange s.cfg (entryAt table ptl (n + 1) va + 7) = true)
    (hp : ∃ i < 8, present s.cfg (entryAt table ptl (n + 1) va + BitVec.ofNat 64 i) = false) :
    walkStep s xm k va table ptl (n + 1) = .error (pageFault xm va 0 0 0xff 0) := by
  have hall : ((List.range 8).all fun i => present s.cfg (entryAt table ptl (n + 1) va + BitVec.ofNat 64 i)) = false := by
    simpa [List.all_eq_false] using hp
  rw [walkStep_eq, hr, require_true, bind_ok, hall, require_false, bind_error]

theorem walkStep_present (hr : physInRange s.cfg (entryAt table ptl (n + 1) va + 7) = true)
    (hp : ∀ i < 8, present s.cfg (entryAt table ptl (n + 1) va + BitVec.ofNat 64 i) = true) :
    walkStep s xm k va table ptl (n + 1) = checkedEntry xm k va n (walkEntry s (entryAt table ptl (n + 1) va)) := by
  have hall : ((List.range 8).all fun i => present s.cfg (entryAt table ptl (n + 1) va + BitVec.ofNat 64 i)) = true := by
    simpa [List.all_eq_true] using hp
  rw [walkStep_eq, hr, require_true, bind_ok, hall, require_true, bind_ok]

end

section
variable {s : State} {xm : Bool} {k : Access} {va table : Word} {ptl n : Nat}

theorem walkStep_perm {e : Word} (h : walkStep s xm k va table ptl (n + 1) = .ok e) : entryPerm e ≠ 0 := by
  rw [walkStep_eq, bind_ok_iff] at h
  obtain ⟨_, -, h⟩ := h
  obtain ⟨_, -, h⟩ := (bind_ok_iff _ _ _).1 h
  exact checkedEntry_ok h

/-! ### The whole walk (20 R145, R147) -/

theorem walk_of_error {x y : Bool} {e : Trap} (h : walkStep s xm k va table ptl (n + 1) = .error e) :
    walk s xm k va ptl (n + 1) table x y = .error e := by
  rw [walk, h, bind_error]

/-- A walk whose first step succeeds is at its page, or goes on in the table that the entry names. -/
theorem walk_of_ok {x y : Bool} {e : Word} (h : walkStep s xm k va table ptl (n + 1) = .ok e) :
    walk s xm k va ptl (n + 1) table x y =
      if n = 0 then .ok { entry := e, xm := x || entryXM e, sxp := y || entrySXP e }
      else walk s xm k va ptl n (entryAddress e) (x || entryXM e) (y || entrySXP e) := by
  rw [walk, h, bind_ok]

/-- The page that a walk finds is not EMPTY. -/
theorem walk_perm {x y : Bool} {l : Leaf} (h : walk s xm k va ptl (n + 1) table x y = .ok l) : entryPerm l.entry ≠ 0 := by
  induction n generalizing table x y with
  | zero =>
    rw [walk, bind_ok_iff] at h
    obtain ⟨e, he, h⟩ := h
    obtain rfl := Except.ok.inj h
    exact walkStep_perm he
  | succ n ih =>
    rw [walk, bind_ok_iff] at h
    obtain ⟨e, -, h⟩ := h
    exact ih h

theorem exists_topLevel (ptl : Nat) : ∃ n, topLevel ptl = n + 1 := by
  unfold topLevel
  split <;> exact ⟨_, rfl⟩

/-- The rights that 20 R148 asks for, one by one. -/
theorem leafCheck_ok_iff {l : Leaf} :
    leafCheck xm k va l = .ok () ↔ (xm = true → l.xm = true) ∧ (k = .write → entryPerm l.entry = 2) ∧
      (k = .fetch → entryPerm l.entry = 3 ∧ (xm = false → l.sxp = false)) := by
  simp only [leafCheck, bind_ok_iff, require_ok_iff, exists_const]
  cases xm <;> cases k <;> simp

/-- The rights of the table of 20 R148, but SXP. -/
def LeafRight (xm : Bool) (k : Access) (l : Leaf) : Prop :=
  (xm = true → l.xm = true) ∧ (k = .write → l.entry.extractLsb' 0 2 = 2#2) ∧ (k = .fetch → l.entry.extractLsb' 0 2 = 3#2)

/-- A fetch in supervisor mode from a page with SXP (20 R148). -/
def LeafPrevented (xm : Bool) (k : Access) (l : Leaf) : Prop := k = .fetch ∧ xm = false ∧ l.sxp = true

theorem leafRight_iff {l : Leaf} :
    LeafRight xm k l ↔ (!xm || l.xm) = true ∧ (k != .write || entryPerm l.entry == 2) = true ∧
      (k != .fetch || entryPerm l.entry == 3) = true := by
  have hwrite := entryPerm_eq_iff l.entry 2#2
  have hfetch := entryPerm_eq_iff l.entry 3#2
  rw [LeafRight, ← hwrite, ← hfetch]
  cases xm <;> cases k <;> simp

theorem leafCheck_of_no_right {l : Leaf} (h : ¬ LeafRight xm k l) :
    leafCheck xm k va l = .error (pageFault xm va l.entry 0 k.code 0) := by
  rw [leafRight_iff] at h
  rw [leafCheck]
  cases hxm : (!xm || l.xm) with
  | false => rfl
  | true =>
    cases hwrite : (k != .write || entryPerm l.entry == 2) with
    | false => rfl
    | true =>
      cases hfetch : (k != .fetch || entryPerm l.entry == 3) with
      | false => rfl
      | true => exact absurd ⟨hxm, hwrite, hfetch⟩ h

/-- A page with the other rights is checked for SXP last. -/
theorem leafCheck_of_right {l : Leaf} (h : LeafRight xm k l) :
    leafCheck xm k va l = require (k != .fetch || xm || !l.sxp) (pageFault xm va l.entry 0 k.code 0x0800) := by
  obtain ⟨hxm, hwrite, hfetch⟩ := leafRight_iff.1 h
  rw [leafCheck, hxm, require_true, bind_ok, hwrite, require_true, bind_ok, hfetch, require_true, bind_ok]

theorem leafCheck_of_prevented {l : Leaf} (h : LeafRight xm k l) (hp : LeafPrevented xm k l) :
    leafCheck xm k va l = .error (pageFault xm va l.entry 0 k.code 0x0800) := by
  obtain ⟨rfl, rfl, hsxp⟩ := hp
  rw [leafCheck_of_right h, hsxp]
  rfl

theorem leafCheck_of_allowed {l : Leaf} (h : LeafRight xm k l) (hp : ¬ LeafPrevented xm k l) : leafCheck xm k va l = .ok () := by
  rw [leafCheck_of_right h, require_ok_iff]
  by_contra hfault
  exact hp (by simpa [LeafPrevented, and_assoc] using hfault)

/-! ### The whole translation (20 R147, R148) -/

/-- The walk of an access, from the table that `page` names. -/
abbrev walked (s : State) (xm : Bool) (k : Access) (va : Word) : Except Trap Leaf :=
  walk s xm k va (walkPtl s va) (topLevel (walkPtl s va)) (entryAddress s.page) false false

/-- The physical address that `va` has in the page a walk found: its frame, and the offset of `va` (20 R147). -/
def frameAddress (l : Leaf) (va : Word) : Word := entryAddress l.entry ||| (va &&& 0xfff#64)

/-- A translation whose address and `page` register are good: the walk, the rights, the frame. -/
theorem translate_on_eq (hon : pagingOn s.cr0 = true) (hr : virtInRange (ptlOf s.cr0) va = true)
    (hpage : s.page.extractLsb' 0 12 = 0#12) :
    translate s xm k va = (do
      let l ← walked s xm k va
      leafCheck xm k va l
      require (physInRange s.cfg (frameAddress l va)) (pageFault xm va l.entry 0 k.code 0x0300)
      require (present s.cfg (frameAddress l va)) (pageFault xm va 0 0 0xff 0)
      .ok (frameAddress l va).toNat) := by
  rw [translate_on hon, translateVirtual, hr, require_true, bind_ok, beq_iff_eq.2 hpage, require_true, bind_ok]
  rfl

/-- Once the walk has found a page: the rights, then the frame. -/
theorem translate_on_of_walked {l : Leaf} (hon : pagingOn s.cr0 = true) (hr : virtInRange (ptlOf s.cr0) va = true)
    (hpage : s.page.extractLsb' 0 12 = 0#12) (hl : walked s xm k va = .ok l) :
    translate s xm k va = (do
      leafCheck xm k va l
      require (physInRange s.cfg (frameAddress l va)) (pageFault xm va l.entry 0 k.code 0x0300)
      require (present s.cfg (frameAddress l va)) (pageFault xm va 0 0 0xff 0)
      .ok (frameAddress l va).toNat) := by
  rw [translate_on_eq hon hr hpage, hl, bind_ok]

theorem translate_on_ok_iff {p : Nat} (hon : pagingOn s.cr0 = true) :
    translate s xm k va = .ok p ↔ virtInRange (ptlOf s.cr0) va = true ∧ s.page.extractLsb' 0 12 = 0#12 ∧
      ∃ l, walked s xm k va = .ok l ∧ leafCheck xm k va l = .ok () ∧ physInRange s.cfg (frameAddress l va) = true ∧
        present s.cfg (frameAddress l va) = true ∧ p = (frameAddress l va).toNat := by
  simp only [translate_on hon, translateVirtual, bind_ok_iff, require_ok_iff, beq_iff_eq, Except.ok.injEq,
    eq_comm (b := p), Unique.exists_iff, walked, frameAddress]

/-- A walk that succeeds starts at a level, so what it finds is not EMPTY. -/
theorem walked_perm {l : Leaf} (h : walked s xm k va = .ok l) : entryPerm l.entry ≠ 0 := by
  obtain ⟨n, hn⟩ := exists_topLevel (walkPtl s va)
  rw [walked, hn] at h
  exact walk_perm h

end

/-! ### PTL and index bits (20 R141, 70 R587) -/

/-- A walk goes by the current PTL, or by that of the last flush where the address was in range under it (70 R587). -/
theorem walkPtl_cases (s : State) (va : Word) :
    walkPtl s va = ptlOf s.cr0 ∨ (walkPtl s va = s.wptl.toNat ∧ virtInRange s.wptl.toNat va = true) := by
  by_cases hsame : ptlOf s.cr0 = s.wptl.toNat
  · exact .inl (if_pos hsame)
  · by_cases hold : (virtInRange s.wptl.toNat va && Config.ptlOld s.freeCtr (va.toNat / 4096)) = true
    · exact .inr ⟨(if_neg hsame).trans (if_pos hold), (Bool.and_eq_true_iff.1 hold).1⟩
    · exact .inl ((if_neg hsame).trans (if_neg hold))

theorem walkPtl_flushPages (s : State) (va : Word) : walkPtl (flushPages s) va = ptlOf s.cr0 := if_pos rfl

theorem levelIndex_eq {ptl n w : Nat} (hw : min 9 (virtWidth ptl - (9 * n + 3)) = w) (va : Word) :
    levelIndex ptl n va = va.toNat / 2 ^ (9 * n + 3) % 2 ^ w := by
  rw [levelIndex, hw]

/-- Settles O21: the translation by its checks, each step of the walk by the entry it reads. -/
theorem pageRights : Obligations.PageRights := by
  refine ⟨fun s xm k va p hon => ?success, fun s xm k va => ⟨fun hon hr => ⟨fun hpage => ?flagged, fun hpage => ?walked⟩,
    fun ptl n table _ => ?walkStep⟩, fun s va => ⟨walkPtl_cases s va, walkPtl_flushPages s va⟩, ⟨rfl, rfl, rfl, rfl, rfl⟩,
    fun va => ?index⟩
  case success =>
    rw [translate_on_ok_iff hon]
    refine and_congr_right fun _ => and_congr_right fun _ => exists_congr fun l => and_congr_right fun hl => ?_
    rw [leafCheck_ok_iff]
    simp only [walked_perm hl, ne_eq, not_false_eq_true, true_and, and_assoc]
    rfl
  case flagged => rw [translate_on_flagged hon xm k hr hpage, pageFault_eq]
  case walked =>
    refine ⟨fun e he => ?walkFault, fun l hl => ?found⟩
    case walkFault => rw [translate_on_eq hon hr hpage, walked, he, bind_error]
    case found =>
      have htranslate := translate_on_of_walked hon hr hpage hl
      refine ⟨fun hright => ?noRight, fun hright hsxp => ?prevented,
        fun hright hsxp => ⟨fun hframe => ?frameOutside, fun hframe hp => ?frameAbsent⟩⟩
      case noRight => rw [htranslate, leafCheck_of_no_right hright, bind_error, pageFault_eq]
      case prevented => rw [htranslate, leafCheck_of_prevented hright hsxp, bind_error, pageFault_eq]
      case frameOutside =>
        have hframe : physInRange s.cfg (frameAddress l va) = false := hframe
        rw [htranslate, leafCheck_of_allowed hright hsxp, bind_ok, hframe, require_false, bind_error, pageFault_eq]
      case frameAbsent =>
        have hframe : physInRange s.cfg (frameAddress l va) = true := hframe
        have hp : present s.cfg (frameAddress l va) = false := hp
        rw [htranslate, leafCheck_of_allowed hright hsxp, bind_ok, hframe, require_true, bind_ok, hp, require_false, bind_error,
          pageFault_eq]
  case walkStep =>
    refine ⟨fun hr => ?entryOutside, fun hr hp => ?entryAbsent, fun hr hp => ?entryRead,
      fun x y => ⟨fun e => walk_of_error, fun e => walk_of_ok⟩⟩
    case entryOutside => exact (walkStep_outside s xm k va table ptl n hr).trans (congrArg _ (pageFault_eq ..))
    case entryAbsent => exact (walkStep_absent s xm k va table ptl n hr hp).trans (congrArg _ (pageFault_eq ..))
    case entryRead =>
      refine ⟨_, walkEntry_cases s _, (walkStep_present s xm k va table ptl n hr hp).trans ?_⟩
      simp only [checkedEntry, pageFault_eq]
      rfl
  case index =>
    refine ⟨fun p hp => ?_, levelIndex_eq rfl va, levelIndex_eq rfl va, fun p hlow hhigh => ?_, levelIndex_eq rfl va,
      levelIndex_eq rfl va, levelIndex_eq rfl va⟩
    · interval_cases p <;> exact ⟨levelIndex_eq rfl va, levelIndex_eq rfl va⟩
    · interval_cases p <;> exact ⟨levelIndex_eq rfl va, levelIndex_eq rfl va⟩

end Sys2Proof.Machine
end

section
/-!
What a step delivers instead of an instruction: the faults of the fetch and what is pending at the boundary, O7, O8.
-/

namespace Sys2Proof.Machine

/-! ### A step that delivers (60 R554, 70 R600) -/

/-- A delivery, then the check of the mapping, then the counter. -/
theorem tickOutcome_checkMapping_eq (s t : State) (next : Word) :
    tickOutcome (checkMapping s next (.next t)) = if mayContinue s t next = true then .next (tick t) else .fault .mappingChanged := by
  cases h : mayContinue s t next with
  | true => exact tickOutcome_checkMapping_next h
  | false => exact tickOutcome_checkMapping_stop h

/-- A CPU that was reset is as a reset leaves it. -/
theorem resetCpu_idem (s : State) : resetCpu s = resetCpu (resetCpu s) := rfl

/-- A delivery keeps `cr0` or resets the CPU. -/
theorem Delivered.cr0 {s t : State} (h : Delivered s t) : t.cr0 = s.cr0 ∨ t = resetCpu t := by
  cases h with
  | entered h =>
    obtain ⟨_, _, _, _, _, rfl⟩ := enter_ok h
    exact .inl rfl
  | reset m => exact .inr (resetCpu_idem _)

/-- With paging off the machine goes on after every delivery. -/
theorem mayContinue_of_cr0 {s t : State} (hoff : pagingOn s.cr0 = false) (h : t.cr0 = s.cr0 ∨ t = resetCpu t) (next : Word) :
    mayContinue s t next = true :=
  mayContinue_of next (h.imp (fun hcr0 => ⟨hoff, by rw [hcr0, hoff]⟩) .inl)

/-! ### Faults of the fetch (30 R209 steps 1 to 4) -/

section
variable {s : State}

theorem step_of_fetch_fault {e : Exc} (hpending : pendingDelivery s = none) (hhalted : s.halted = false)
    (h : fetchDecode s = .error (.exc e)) :
    step s = if mayContinue s (takeException s e) (s.ip + 1) = true then .next (tick (takeException s e))
      else .fault .mappingChanged := by
  rw [← tickOutcome_checkMapping_eq]
  simp only [step, hpending, hhalted, runInstruction, h, finish_exc]
  rfl

theorem fetchDecode_odd (h : s.ip.getLsbD 0 = true) : fetchDecode s = .error (.exc (.xa s.ip)) := by
  rw [fetchDecode, h]
  rfl

/-- An even `ip` is fetched from. -/
theorem fetchDecode_even (h : s.ip.getLsbD 0 = false) :
    fetchDecode s = (do
      let bs ← fetchFrom s 16 s.ip []
      match decode bs with
      | .ok (i, _) => do
        fetchUnits s (machineUnits s i) (nextAfter s (encode i).length)
        .ok i
      | .error _ => .error (.exc .und)) := by
  rw [fetchDecode, h]
  rfl

theorem fetchDecode_of_fetch_error {t : Trap} (h : s.ip.getLsbD 0 = false) (hf : fetchFrom s 16 s.ip [] = .error t) :
    fetchDecode s = .error t := by
  rw [fetchDecode_even h, hf, bind_error]

theorem fetchDecode_of_decode_error {bs : List Byte} {e : DecodeError} (h : s.ip.getLsbD 0 = false)
    (hf : fetchFrom s 16 s.ip [] = .ok bs) (hd : decode bs = .error e) : fetchDecode s = .error (.exc .und) := by
  rw [fetchDecode_even h, hf, bind_ok, hd]

/-- The operands of a machine-specific instruction are fetched after its opcode word (46 R475). -/
theorem fetchDecode_of_units_error {bs rest : List Byte} {lo : BitVec 5} {hh : BitVec 4} {m : MachineOpcode} {t : Trap}
    (h : s.ip.getLsbD 0 = false) (hf : fetchFrom s 16 s.ip [] = .ok bs) (hd : decode bs = .ok (.machineSpecific lo hh, rest))
    (hm : machineOpcode s.cfg lo = some m) (hu : fetchUnits s m.units.val (s.ip + 2) = .error t) : fetchDecode s = .error t := by
  have hunits : machineUnits s (.machineSpecific lo hh) = m.units.val := by simp only [machineUnits, hm]; rfl
  have hnext : nextAfter s (encode (.machineSpecific lo hh)).length = s.ip + 2 := rfl
  rw [fetchDecode_even h, hf, bind_ok, hd]
  simp only [hunits, hnext, hu, bind_error]

end

/-- Settles O7: each fault of the fetch is one trap of `fetchDecode`, which the step takes. -/
theorem fetchFaultsTaken : Obligations.FetchFaultsTaken := by
  intro s hpending hhalted taken
  have htaken (e : Exc) (h : fetchDecode s = .error (.exc e)) : taken e := by
    have hstep := step_of_fetch_fault hpending hhalted h
    refine ⟨fun hgo => hstep.trans (if_pos hgo), fun hstop => hstep.trans (if_neg (Bool.eq_false_iff.1 hstop)), fun hoff => ?_⟩
    exact hstep.trans (if_pos (mayContinue_of_cr0 hoff (takeException_delivered s e).cr0 _))
  exact ⟨fun hodd => htaken _ (fetchDecode_odd hodd), fun e heven hf => htaken e (fetchDecode_of_fetch_error heven hf),
    fun bs e heven hf hd => htaken _ (fetchDecode_of_decode_error heven hf hd),
    fun bs rest lo hh m e heven hf hd hm hu => htaken e (fetchDecode_of_units_error heven hf hd hm hu)⟩

/-! ### What is pending (60 R550 to R554) -/

/-- The lowest-numbered pending request. -/
theorem lowestIrq_eq_some {irq : BitVec 32} {i : Nat} (hi : i < 32) (h : irq.getLsbD i = true)
    (hbelow : ∀ j < i, irq.getLsbD j = false) : lowestIrq irq = some i := by
  rw [lowestIrq, List.find?_range_eq_some]
  exact ⟨h, List.mem_range.2 hi, fun j hj => by simp [hbelow j hj]⟩

theorem lowestIrq_zero : lowestIrq 0#32 = none := by decide

/-- Clearing a request clears its bit and keeps the others (60 R550). -/
theorem clearIrq_bit (s : State) {i : Nat} (hi : i < 32) (j : Nat) :
    (clearIrq s i).irq.getLsbD j = (s.irq.getLsbD j && j != i) := by
  have hbit : (1#32 <<< i).getLsbD j = decide (i = j) := by
    rw [← BitVec.twoPow_eq, BitVec.getLsbD_twoPow, decide_eq_true hi, Bool.true_and]
  rcases Nat.lt_or_ge j 32 with hj | hj
  · rw [clearIrq, BitVec.getLsbD_and, BitVec.getLsbD_not, hbit, decide_eq_true hj, Bool.true_and, ← beq_eq_decide, bne, BEq.comm]
  · rw [BitVec.getLsbD_of_ge _ _ hj, BitVec.getLsbD_of_ge _ _ hj, Bool.false_and]

section
variable {s : State}

theorem pendingDelivery_nmi (h : s.nmi = true) : pendingDelivery s = some (deliverNmi s) := if_pos h

theorem pendingDelivery_irq {i : Nat} (hn : s.nmi = false) (hie : interruptsOn s.cr0 = true) (hi : lowestIrq s.irq = some i) :
    pendingDelivery s = some (deliverIrq s i) := by
  simp [pendingDelivery, hn, hie, hi]

theorem pendingDelivery_masked (hn : s.nmi = false) (hie : interruptsOn s.cr0 = false) : pendingDelivery s = none := by
  simp [pendingDelivery, hn, hie]

theorem pendingDelivery_idle (hn : s.nmi = false) (hirq : s.irq = 0) : pendingDelivery s = none := by
  simp [pendingDelivery, hn, hirq, lowestIrq_zero]

theorem step_of_pending {t : State} (h : pendingDelivery s = some t) :
    step s = if mayContinue s t (s.ip + 1) = true then .next (tick t) else .fault .mappingChanged := by
  rw [← tickOutcome_checkMapping_eq, step, h]

theorem step_halted (h : pendingDelivery s = none) (hhalted : s.halted = true) : step s = .next s := by
  rw [step, h]
  exact if_pos hhalted

/-- With paging off a step makes the delivery that is pending. -/
theorem step_of_pending_off {t : State} (h : pendingDelivery s = some t) (hcr0 : t.cr0 = s.cr0 ∨ t = resetCpu t)
    (hoff : pagingOn s.cr0 = false) : step s = .next (tick t) :=
  (step_of_pending h).trans (if_pos (mayContinue_of_cr0 hoff hcr0 _))

end

theorem deliverInterrupt_cr0 (s : State) (v : Nat) (ip protIp : Word) :
    (deliverInterrupt s v ip protIp).cr0 = s.cr0 ∨ deliverInterrupt s v ip protIp = resetCpu (deliverInterrupt s v ip protIp) := by
  rcases deliverInterrupt_delivered s v ip protIp with h | h
  · exact h.cr0
  · exact .inl (by rw [h])

/-- Settles O8: what `pendingDelivery` gives, and the step that makes it. -/
theorem interruptBoundary : Obligations.InterruptBoundary := by
  refine ⟨fun s hhalted hn hidle => step_halted (hidle.elim (pendingDelivery_masked hn) (pendingDelivery_idle hn)) hhalted,
    fun s => ⟨fun hn => ?nmi, fun i hn hie hi hbelow => ?irq, pendingDelivery_masked⟩⟩
  case nmi =>
    have hpending := pendingDelivery_nmi hn
    exact ⟨step_of_pending hpending, step_of_pending_off hpending (deliverException_delivered _ _ _).cr0⟩
  case irq =>
    have hpending := pendingDelivery_irq hn hie (lowestIrq_eq_some i.isLt hi hbelow)
    exact ⟨clearIrq s i.val, ⟨step_of_pending hpending, step_of_pending_off hpending (deliverInterrupt_cr0 _ _ _ _)⟩, rfl,
      clearIrq_bit s i.isLt⟩

end Sys2Proof.Machine
end

section
/-!
The entries that an instruction makes: `scall` in both forms and `int`, and O54.
-/

namespace Sys2Proof.Machine

/-! ### Bits of a supervisor mode and of a reported status -/

/-- Supervisor mode clears XM and XMM, and keeps the other bits of `mode` (60 R533). -/
theorem supervisorMode_bit (m : Word) (i : Nat) : (supervisorMode m).getLsbD i = (m.getLsbD i && i != 32 && i != 33) := by
  rw [supervisorMode, setBit_getLsbD _ (by decide), setBit_getLsbD _ (by decide)]
  by_cases h33 : i = 33
  · simp [h33]
  · by_cases h32 : i = 32
    · simp [h32]
    · rw [if_neg h33, if_neg h32, bne_iff_ne.2 h32, bne_iff_ne.2 h33, Bool.and_true, Bool.and_true]

theorem statusMask_bit (b : Nat) : (0x0003#16).getLsbD b = decide (b < 2) := by
  rcases Nat.lt_or_ge b 2 with hb | hb
  · interval_cases b <;> decide
  · rw [decide_eq_false (Nat.not_lt.2 hb)]
    exact testBit_eq_false_of_lt_of_le (n := 2) (by decide) hb

theorem statusXM_bit (xm : Bool) (b : Nat) : (statusXM xm).getLsbD b = (xm && decide (b < 2)) := by
  cases xm with
  | false => exact BitVec.getLsbD_zero
  | true => exact statusMask_bit b

/-- A reported mode replaces XM and XMM of the status and keeps the other flags (20 R152). -/
theorem reportedStatus_bit (status : BitVec 16) (xm : Bool) (b : Nat) :
    ((status &&& ~~~0x0003#16) ||| statusXM xm).getLsbD b = if b < 2 then xm else status.getLsbD b := by
  rw [BitVec.getLsbD_or, BitVec.getLsbD_and, BitVec.getLsbD_not, statusMask_bit, statusXM_bit]
  by_cases hb : b < 2
  · simp [hb]
  · rcases Nat.lt_or_ge b 16 with hw | hw
    · simp [hb, hw]
    · simp [hb, BitVec.getLsbD_of_ge _ _ hw]

/-! ### `scall` (45 R450) -/

theorem exec_scall (s : State) : exec .scall s = finish s (scallState s) := rfl

/-- Where the stack form pushes, checked for writing with supervisor rights. -/
abbrev scallSlot (s : State) : Except Trap (List Nat) := translateAll s false .write (frameStack s s.scsp - 32) 32

/-- What the fast form leaves: r7, `mode` and the next address saved, the supervisor's stack and mode, at `scdp`. -/
def scallFastDone (s : State) : State :=
  branchTo
    { setGpr (setGpr (setGpr (setGpr s 12 (getGpr s 7)) 7 (frameStack s s.scsp)) 13 s.mode) 14 (nextAfter s 2) with
      mode := supervisorMode s.mode }
    s.scdp

/-- What the stack form leaves with its frame stored at `ps`. -/
def scallStackDone (s : State) (ps : List Nat) : State :=
  enterSupervisor s ps (frameBytes (nextAfter s 2) s.mode s.flags (getGpr s 7)) (frameStack s s.scsp - 32) s.scdp

section
variable {s : State}

theorem scallState_disabled (h : s.scdp = 0) : scallState s = .error (.exc .prot) := by
  rw [scallState, h]
  rfl

theorem scallState_fast (h : s.scdp ≠ 0) (hf : s.sccr.getLsbD 1 = true) :
    scallState s = (do checkTarget s false s.scdp; .ok (scallFastDone s)) := by
  rw [scallState, bne_iff_ne.2 h, require_true, bind_ok]
  exact if_pos hf

theorem scallState_stack (h : s.scdp ≠ 0) (hf : s.sccr.getLsbD 1 = false) :
    scallState s = (do
      let ps ← reportMode s.xm (scallSlot s)
      checkTarget s false s.scdp
      .ok (scallStackDone s ps)) := by
  rw [scallState, bne_iff_ne.2 h, require_true, bind_ok]
  exact if_neg (Bool.eq_false_iff.1 hf)

/-- The stack form once its slot is checked. -/
theorem scallState_stack_of_slot {ps : List Nat} (h : s.scdp ≠ 0) (hf : s.sccr.getLsbD 1 = false) (hps : scallSlot s = .ok ps) :
    scallState s = (do checkTarget s false s.scdp; .ok (scallStackDone s ps)) := by
  rw [scallState_stack h hf, (reportMode_ok_iff _ _ _).2 hps, bind_ok]

/-- A page fault of the pushes reports the caller's mode (20 R152). -/
theorem scallState_stack_fault {i : PageFaultInfo} (h : s.scdp ≠ 0) (hf : s.sccr.getLsbD 1 = false)
    (hps : scallSlot s = .error (.exc (.pf i))) :
    scallState s = .error (.exc (.pf { i with status := (i.status &&& ~~~0x0003#16) ||| statusXM s.xm })) := by
  rw [scallState_stack h hf, hps, reportMode, bind_error]

/-- Either form, its slot being checked where it has one, raises what its target does (45 R421). -/
theorem scallState_target_fault {f : Trap} (h : s.scdp ≠ 0) (ht : checkTarget s false s.scdp = .error f)
    (hslot : s.sccr.getLsbD 1 = true ∨ ∃ ps, scallSlot s = .ok ps) : scallState s = .error f := by
  cases hf : s.sccr.getLsbD 1 with
  | true => rw [scallState_fast h hf, ht, bind_error]
  | false =>
    obtain ⟨ps, hps⟩ := hslot.resolve_left (Bool.eq_false_iff.1 hf)
    rw [scallState_stack_of_slot h hf hps, ht, bind_error]

end

/-- The general registers after the fast form. -/
theorem scallFastDone_gpr (s : State) :
    getGpr (scallFastDone s) 12 = getGpr s 7 ∧ getGpr (scallFastDone s) 7 = frameStack s s.scsp ∧
      getGpr (scallFastDone s) 13 = s.mode ∧ getGpr (scallFastDone s) 14 = nextAfter s 2 ∧
      SameGprsBut [7, 12, 13, 14] s (scallFastDone s) := by
  have hregs (r : BitVec 4) : getGpr (scallFastDone s) r =
      getGpr (setGpr (setGpr (setGpr (setGpr s 12 (getGpr s 7)) 7 (frameStack s s.scsp)) 13 s.mode) 14 (nextAfter s 2)) r := rfl
  refine ⟨?_, ?_, ?_, ?_, fun r hr => ?_⟩
  · rw [hregs, getGpr_setGpr_other _ _ _ _ (by decide), getGpr_setGpr_other _ _ _ _ (by decide),
      getGpr_setGpr_other _ _ _ _ (by decide), getGpr_setGpr_same]
  · rw [hregs, getGpr_setGpr_other _ _ _ _ (by decide), getGpr_setGpr_other _ _ _ _ (by decide), getGpr_setGpr_same]
  · rw [hregs, getGpr_setGpr_other _ _ _ _ (by decide), getGpr_setGpr_same]
  · rw [hregs, getGpr_setGpr_same]
  · simp only [List.mem_cons, List.not_mem_nil, or_false, not_or] at hr
    obtain ⟨h7, h12, h13, h14⟩ := hr
    rw [hregs, getGpr_setGpr_other _ _ _ _ h14, getGpr_setGpr_other _ _ _ _ h13, getGpr_setGpr_other _ _ _ _ h7,
      getGpr_setGpr_other _ _ _ _ h12]

/-- The stack form loads the stack pointer and keeps the other general registers (60 R533). -/
theorem scallStackDone_gpr (s : State) (ps : List Nat) :
    getGpr (scallStackDone s ps) 7 = frameStack s s.scsp - 32 ∧ SameGprsBut [7] s (scallStackDone s ps) := by
  have hregs (r : BitVec 4) : getGpr (scallStackDone s ps) r = getGpr (setGpr s 7 (frameStack s s.scsp - 32)) r := rfl
  refine ⟨?_, fun r hr => ?_⟩
  · rw [hregs, getGpr_setGpr_same]
  · rw [hregs, getGpr_setGpr_other _ _ _ _ (by simpa using hr)]

theorem frameBytes_length (ip mode flags sp : Word) : (frameBytes ip mode flags sp).length = 32 := by simp [frameBytes]

/-- The frame of an entry reads back from where it was stored, and every other byte is kept. -/
theorem frame_stored {s : State} {xm : Bool} {k : Access} {va : Word} {ps : List Nat} (hps : translateAll s xm k va 32 = .ok ps)
    (ip mode flags sp : Word) :
    (s.mem.writeBytes ps (frameBytes ip mode flags sp)).readBytes ps = frameBytes ip mode flags sp ∧
      ∀ a, a ∉ ps → (s.mem.writeBytes ps (frameBytes ip mode flags sp)).read a = s.mem.read a := by
  refine ⟨readBytes_writeBytes_same ps _ _ (translateAll_nodup (by decide) hps) ?_, read_writeBytes_other ps _ _⟩
  rw [frameBytes_length, translateAll_length hps]

/-! ### `int` (45 R435) -/

section
variable {s : State} {i : BitVec 4}

theorem exec_intr_enabled (h : interruptsOn s.cr0 = true) :
    exec (.intr i) s = .next (deliverInterrupt s (16 + i.toNat) (s.ip + 2) s.ip) := by
  show finish s (intState i s) = _
  rw [intState, if_pos h]
  rfl

theorem exec_intr_ignored (h : interruptsOn s.cr0 = false) (hcfg : s.cfg.intWhenDisabled = .ignored) :
    exec (.intr i) s = .next { s with ip := s.ip + 2 } := by
  show finish s (intState i s) = _
  rw [intState, if_neg (Bool.eq_false_iff.1 h), hcfg]
  rfl

theorem exec_intr_prot (h : interruptsOn s.cr0 = false) (hcfg : s.cfg.intWhenDisabled = .prot) :
    exec (.intr i) s = .next (takeException s .prot) := by
  show finish s (intState i s) = _
  rw [intState, if_neg (Bool.eq_false_iff.1 h), hcfg]
  rfl

end

/-- Settles O54: the fast form by its one check, the stack form by its two, `int` by its delivery. -/
theorem supervisorEntry : Obligations.SupervisorEntry := by
  refine ⟨fun s => ⟨fun h => ?disabled, fun h hf ht => ?fast, fun ps h hf hps ht => ?stack, fun i h hf hps => ?pushFault,
    fun f h ht hslot => ?targetFault⟩,
    fun s t i => ⟨fun hie h => ?entered, fun hie h => ?outside, exec_intr_ignored, exec_intr_prot⟩⟩
  case disabled => rw [exec_scall, scallState_disabled h, finish_exc]
  case fast =>
    have hdone : scallState s = .ok (scallFastDone s) := by rw [scallState_fast h hf, ht, bind_ok]
    obtain ⟨h12, h7, h13, h14, hother⟩ := scallFastDone_gpr s
    exact ⟨_, exec_next_of_ok (exec_scall s) hdone, rfl, h12, h7, h13, h14, hother, supervisorMode_bit s.mode, rfl⟩
  case stack =>
    have hdone : scallState s = .ok (scallStackDone s ps) := by rw [scallState_stack_of_slot h hf hps, ht, bind_ok]
    obtain ⟨h7, hother⟩ := scallStackDone_gpr s ps
    obtain ⟨hframe, hmem⟩ := frame_stored hps (nextAfter s 2) s.mode s.flags (getGpr s 7)
    exact ⟨_, exec_next_of_ok (exec_scall s) hdone, rfl, h7, hother, supervisorMode_bit s.mode, hframe, hmem, rfl⟩
  case pushFault =>
    exact ⟨_, by rw [exec_scall, scallState_stack_fault h hf hps, finish_exc], reportedStatus_bit i.status s.xm⟩
  case targetFault => exact abandons_of_error (exec_scall s) (scallState_target_fault h ht hslot)
  case entered => rw [exec_intr_enabled hie, deliverInterrupt, h]
  case outside =>
    rw [exec_intr_enabled hie, deliverInterrupt, h]
    rfl

end Sys2Proof.Machine
end

section
/-!
Supervisor instructions: `halt`, the flushes of caches, and `rstregf`, which loads every register: O56, O58.
-/

namespace Sys2Proof.Machine

/-! ### `halt` and the flushes of all of a cache (46 R480, R485, R486) -/

section
variable {s : State} (hx : s.xm = false)
include hx

theorem exec_halt : exec .halt s = .next { s with halted := true, ip := s.ip + 2 } := by
  show finish s (haltState s) = _
  rw [haltState, supervisorOnly_of_supervisor hx]
  rfl

theorem exec_pcfl : exec .pcfl s = finish s (do
    require (s.page.extractLsb' 0 12 == 0#12) (badPageFault s)
    .ok { flushPages s with ip := nextAfter s 2 }) := by
  show finish s (pcflState s) = _
  rw [pcflState, supervisorOnly_of_supervisor hx, bind_ok]

theorem exec_flall : exec .flall s = .next { s with imem := s.mem, wmem := s.mem, wptl := ptlBits s.cr0, ip := s.ip + 2 } := by
  show finish s (flallState s) = _
  rw [flallState, supervisorOnly_of_supervisor hx]
  rfl

/-! ### The flushes of one address (46 R484, R487, R488) -/

theorem exec_dflush {a : Operand} (ha : isMem a = true) : exec (.dflush a) s = finish s (do
    flushRangeCheck s (addrOf s (nextIp s [a]) a)
    .ok { s with ip := nextIp s [a] }) := by
  show finish s (dflushState a s) = _
  rw [dflushState, supervisorOnly_of_supervisor hx, bind_ok, ha, require_true, bind_ok]

theorem exec_iflush {a : Operand} (ha : isMem a = true) : exec (.iflush a) s = finish s (do
    flushRangeCheck s (addrOf s (nextIp s [a]) a)
    .ok { flushCode s (addrOf s (nextIp s [a]) a) with ip := nextIp s [a] }) := by
  show finish s (iflushState a s) = _
  rw [iflushState, supervisorOnly_of_supervisor hx, bind_ok, ha, require_true, bind_ok]

end

/-- The address range that `dflush` and `iflush` test: that of the accesses as paging has it (46 R484). -/
def flushInRange (s : State) (a : Word) : Bool := if pagingOn s.cr0 then virtInRange (ptlOf s.cr0) a else physInRange s.cfg a

section
variable {s : State} {a : Word}

theorem flushRangeCheck_ok (h : flushInRange s a = true) : flushRangeCheck s a = .ok () := by
  unfold flushInRange at h
  unfold flushRangeCheck
  split at h
  · next hon => rw [if_pos hon, h, require_true]
  · next hoff => rw [if_neg hoff, h, require_true]

/-- Outside the range the fault has the address, no level, and the range flag (20 R152). -/
theorem flushRangeCheck_error (h : flushInRange s a = false) :
    ∃ i : PageFaultInfo, i.fcode = a ∧ i.pref = 0 ∧ i.plevel = 0 ∧ i.status.getLsbD 9 = true ∧
      flushRangeCheck s a = .error (.exc (.pf i)) := by
  unfold flushInRange at h
  unfold flushRangeCheck
  split at h
  · next hon =>
    rw [if_pos hon, h, require_false]
    exact ⟨_, rfl, rfl, rfl, by rw [BitVec.getLsbD_or, Bool.or_comm]; rfl, rfl⟩
  · next hoff =>
    rw [if_neg hoff, h, require_false]
    exact ⟨_, rfl, rfl, rfl, by rw [BitVec.getLsbD_or, Bool.or_comm]; rfl, rfl⟩

/-- A refreshed byte is memory's, the others are as they were. -/
theorem refreshByte_read (s : State) (p q : Nat) : (refreshByte s p).imem.read q = if q = p then s.mem.read q else s.imem.read q := by
  split
  · next h => rw [h]; exact read_write_same _ _ _
  · next h => exact read_write_other _ _ _ _ h

theorem flushCode_of_ok {p : Nat} (h : translate (flushPages s) false .read a = .ok p) :
    flushCode s a = refreshByte (refreshByte s (p / 2 * 2)) (p / 2 * 2 + 1) := by
  rw [flushCode, h]

theorem flushCode_of_error {t : Trap} (h : translate (flushPages s) false .read a = .error t) : flushCode s a = s := by
  rw [flushCode, h]

/-- Only what fetches may see changes. -/
theorem flushCode_frame (s : State) (a : Word) : flushCode s a = { s with imem := (flushCode s a).imem } := by
  cases h : translate (flushPages s) false .read a with
  | ok p => rw [flushCode_of_ok h]; rfl
  | error t => rw [flushCode_of_error h]

/-- The two bytes of the aligned word are memory's, the others are as they were (46 R488). -/
theorem flushCode_read {p : Nat} (h : translate (flushPages s) false .read a = .ok p) (q : Nat) :
    (flushCode s a).imem.read q = if q = p / 2 * 2 ∨ q = p / 2 * 2 + 1 then s.mem.read q else s.imem.read q := by
  rw [flushCode_of_ok h, refreshByte_read, refreshByte_read]
  by_cases hfirst : q = p / 2 * 2 <;> by_cases hsecond : q = p / 2 * 2 + 1 <;> simp [hfirst, hsecond, refreshByte]

theorem flushCode_read_cases (s : State) (a : Word) (q : Nat) :
    (flushCode s a).imem.read q = s.imem.read q ∨ (flushCode s a).imem.read q = s.mem.read q := by
  cases h : translate (flushPages s) false .read a with
  | ok p =>
    rw [flushCode_read h]
    exact (ite_eq_or_eq _ _ _).symm
  | error t => exact .inl (by rw [flushCode_of_error h])

end

/-- Settles O56: each instruction after its mode check, `iflush` by what `flushCode` reads. -/
theorem haltAndCaches : Obligations.HaltAndCaches := by
  refine fun s a hx => ⟨exec_halt hx, fun hpage => ?pcfl, fun hpage => ?pcflFault, exec_flall hx,
    fun ha => ⟨fun hr => ⟨?dflush, ?iflush⟩, fun hr => ?outside⟩⟩
  case pcfl =>
    rw [exec_pcfl hx, beq_iff_eq.2 hpage]
    rfl
  case pcflFault =>
    rw [exec_pcfl hx, beq_eq_false_iff_ne.2 hpage]
    exact ⟨_, rfl, rfl, rfl⟩
  case dflush => rw [exec_dflush hx ha, flushRangeCheck_ok hr, bind_ok, finish_ok]
  case iflush =>
    refine ⟨(flushCode s (addrOf s (nextIp s [a]) a)).imem, ?_, flushCode_read_cases s _, fun p hp => ?_⟩
    · rw [exec_iflush hx ha, flushRangeCheck_ok hr, bind_ok, finish_ok, flushCode_frame]
    · have hread := flushCode_read hp
      exact ⟨(hread _).trans (if_pos (.inl rfl)), (hread _).trans (if_pos (.inr rfl)),
        fun q h0 h1 => (hread q).trans (if_neg (not_or.2 ⟨h0, h1⟩))⟩
  case outside =>
    obtain ⟨i, hcode, hpref, hlevel, hstatus, herr⟩ := flushRangeCheck_error hr
    refine ⟨i, hcode, hpref, hlevel, hstatus, ?_, ?_⟩
    · rw [exec_dflush hx ha, herr, bind_error, finish_exc]
    · rw [exec_iflush hx ha, herr, bind_error, finish_exc]

/-! ### The image (46 R500, R501) -/

/-- The slots of the reserved registers. -/
theorem slotReserved_iff {i : Nat} (hi : i < 64) :
    slotReserved i = true ↔ (19 ≤ i ∧ i ≤ 31) ∨ i = 50 ∨ i = 51 ∨ (59 ≤ i ∧ i ≤ 63) := by
  interval_cases i <;> decide

/-- Every slot of a reserved register holds 0 (46 R500). -/
def fullReservedZero (image : List Byte) : Bool := (List.range 64).all fun i => !slotReserved i || slotOf image i == 0

theorem fullReservedZero_iff (image : List Byte) :
    fullReservedZero image = true ↔
      ∀ i, ((19 ≤ i ∧ i ≤ 31) ∨ i = 50 ∨ i = 51 ∨ (59 ≤ i ∧ i ≤ 63)) → slotOf image i = 0 := by
  simp only [fullReservedZero, List.all_eq_true, List.mem_range, Bool.or_eq_true, Bool.not_eq_true', beq_iff_eq]
  refine ⟨fun h i hi => ?_, fun h i hi => ?_⟩
  · have hlt : i < 64 := by omega
    exact (h i hlt).resolve_left (by rw [(slotReserved_iff hlt).2 hi]; decide)
  · cases hres : slotReserved i with
    | false => exact .inl rfl
    | true => exact .inr (h i ((slotReserved_iff hi).1 hres))

/-- What a restore makes of the machine-specific registers is up to `MsrBehaviour`: refused, they are kept (10 R68). -/
theorem restoredMsrs_refuse {s : State} (h : s.cfg.msrBehaviour = .refuse) (image : List Byte) : restoredMsrs s image = s.msr := by
  rw [restoredMsrs, h]

theorem restoredMsrs_storage {s : State} (h : s.cfg.msrBehaviour = .storage) (image : List Byte) (k : Fin 7) :
    (restoredMsrs s image)[k] = slotOf image (52 + k.val) := by
  simp [restoredMsrs, h]

theorem restoredMsrs_machine {s : State} (h : s.cfg.msrBehaviour = .machine) (image : List Byte) :
    let w (k : Fin 7) (m : Vector Word 7) := Config.msrWrite s.freeCtr k (slotOf image (52 + k.val)) m
    restoredMsrs s image = w 6 (w 5 (w 4 (w 3 (w 2 (w 1 (w 0 s.msr)))))) := by
  have hafter (m : Vector Word 7) (k : Fin 7) (v : Word) : msrAfter s m k v = Config.msrWrite s.freeCtr k v m := if_pos h
  simp only [restoredMsrs, h, hafter]
  rfl

/-! ### Turning paging off under the executing page (20 R151) -/

/-- With paging off an address is mapped to itself, if anywhere. -/
theorem mappedTo_off {s : State} {va : Word} {p : Nat} (hoff : pagingOn s.cr0 = false) (h : mappedTo s va = some p) : p = va.toNat := by
  unfold mappedTo at h
  split at h
  · next q hq =>
    obtain ⟨_, _, hva⟩ := (translate_physical_ok_iff (s := flushPages s) hoff).1 hq
    rw [hva, Option.some.inj h]
  · cases h

theorem pagingOn_withPtlOf (a b : Word) : pagingOn (withPtlOf a b) = pagingOn a := by
  simp [pagingOn, withPtlOf]

section
variable {old new : State} {va : Word} {p : Nat}
  (hon : pagingOn old.cr0 = true) (hmap : mappedTo old va = some p) (hne : p ≠ va.toNat)
include hon hmap hne

theorem sameMappingAs_off_eq_false (hoff : pagingOn new.cr0 = false) : sameMappingAs old new va = false := by
  simp only [sameMappingAs, hon, Bool.true_or, Bool.not_true, Bool.false_or, beq_eq_false_iff_ne]
  exact fun h => hne (mappedTo_off hoff (h.trans hmap))

/-- Turning paging off does not keep an address mapped that was not mapped to itself, whatever the PTL. -/
theorem keepsMapping_off_eq_false (hoff : pagingOn new.cr0 = false) : keepsMapping old new va = false := by
  have hptl : sameMappingAs old { new with cr0 := withPtlOf new.cr0 old.cr0 } va = false :=
    sameMappingAs_off_eq_false hon hmap hne ((pagingOn_withPtlOf _ _).trans hoff)
  rw [keepsMapping, pageFlagged, hoff, sameMappingAs_off_eq_false hon hmap hne hoff, hptl, Bool.and_false]
  rfl

end

/-- A step that turns paging off on a page not mapped to its own address maps that page elsewhere. -/
theorem keepsOwnMapping_off_eq_false {s t : State} {p : Nat} (hon : pagingOn s.cr0 = true) (hbrCr0 : s.brCr0 = s.cr0)
    (hbrPage : s.brPage = s.page) (hbrMem : s.brMem = s.mem) (hoff : pagingOn t.cr0 = false) (hmap : mappedTo s s.ip = some p)
    (hne : p ≠ s.ip.toNat) (next : Word) : keepsOwnMapping s t next = false := by
  have hbranch : mappedTo (atBranch s) s.ip = some p :=
    (mappedTo_congr (s := s) (t := atBranch s) hbrCr0 hbrPage hbrMem rfl s.ip).trans hmap
  have hbranchOn : pagingOn (atBranch s).cr0 = true := by rw [← hon, ← hbrCr0]; rfl
  rw [keepsOwnMapping, keepsExecuted, keepsMapping_off_eq_false hon hmap hne hoff,
    keepsMapping_off_eq_false hbranchOn hbranch hne hoff]
  rfl

/-! ### The restore (46 R500) -/

/-- A restore of all registers once its image is loaded: the reserved slots, the values of `cr0`, `sccr` and `mode`, the target under
the new registers, the mapping. -/
def restoreAll (s : State) (next : Word) (image : List Byte) : Except Trap State := do
  require (fullReservedZero image) (.exc .prot)
  cr0Check s (slotOf image 32)
  sccrCheck s (slotOf image 37)
  modeCheck s (slotOf image 18)
  checkTarget (restoreFull s image) (restoreFull s image).xm (slotOf image 16)
  require (keepsOwnMapping s (restoreFull s image) next) (.stop .mappingChanged)
  .ok (branchTo (restoreFull s image) (slotOf image 16))

theorem exec_rstregf {s : State} {a : Operand} (hx : s.xm = false) (ha : isMem a = true) :
    exec (.rstregf a) s = finish s (do
      let image ← memBytes s (addrOf s (nextIp s [a]) a) 512
      restoreAll s (nextIp s [a]) image) := by
  show finish s (rstregfState a s) = _
  rw [rstregfState, supervisorOnly_of_supervisor hx, bind_ok, ha, require_true, bind_ok]
  rfl

/-- The registers after a restore, in supervisor mode. -/
theorem restoreFull_supervisor {s : State} (hx : s.xm = false) (image : List Byte) :
    restoreFull s image = { s with
      gpr := Vector.ofFn fun i => slotOf image i.val, flags := writtenFlags s (slotOf image 17), mode := slotOf image 18
      cr0 := slotOf image 32, page := slotOf image 33, flprotect := slotOf image 34, scdp := slotOf image 35
      scsp := slotOf image 36, sccr := slotOf image 37, itabp := slotOf image 38, ciread := slotOf image 39
      fcode := slotOf image 48, pfcharp := slotOf image 49
      msr := restoredMsrs s image } := by
  rw [restoreFull, writtenMode_supervisor hx, loadGprs]

theorem restoreFull_mem (s : State) (image : List Byte) : (restoreFull s image).mem = s.mem := by simp only [restoreFull, loadGprs]

section
variable {s : State} {next : Word} {image : List Byte} {t : Trap}

theorem restoreAll_reserved
    (h : ∃ i, ((19 ≤ i ∧ i ≤ 31) ∨ i = 50 ∨ i = 51 ∨ (59 ≤ i ∧ i ≤ 63)) ∧ slotOf image i ≠ 0) :
    restoreAll s next image = .error (.exc .prot) := by
  obtain ⟨i, hi, hne⟩ := h
  have hbad : fullReservedZero image = false := Bool.eq_false_iff.2 fun hz => hne ((fullReservedZero_iff image).1 hz i hi)
  rw [restoreAll, hbad, require_false, bind_error]

/-- The checks of the values come in this order, before that of the target. -/
theorem restoreAll_of_raises (hz : fullReservedZero image = true)
    (h : Raises [cr0Check s (slotOf image 32), sccrCheck s (slotOf image 37), modeCheck s (slotOf image 18)] t) :
    restoreAll s next image = .error t := by
  rw [restoreAll, hz, require_true, bind_ok]
  exact raises_bind_check h fun h => raises_bind_check h fun h => raises_bind_check h fun h => absurd h (raises_nil t)

/-- With acceptable values the target and the mapping are checked. -/
theorem restoreAll_of_values (hz : fullReservedZero image = true) (hcr0 : cr0Check s (slotOf image 32) = .ok ())
    (hsccr : sccrCheck s (slotOf image 37) = .ok ()) (hm : modeCheck s (slotOf image 18) = .ok ()) :
    restoreAll s next image = (do
      checkTarget (restoreFull s image) (restoreFull s image).xm (slotOf image 16)
      require (keepsOwnMapping s (restoreFull s image) next) (.stop .mappingChanged)
      .ok (branchTo (restoreFull s image) (slotOf image 16))) := by
  rw [restoreAll, hz, require_true, bind_ok, hcr0, bind_ok, hsccr, bind_ok, hm, bind_ok]

end

/-- Settles O58: the load, then the checks of `restoreAll` in order; the mapping by whether paging stays, or goes off elsewhere. -/
theorem restoreAllRegisters : Obligations.RestoreAllRegisters := by
  intro s a hx ha
  have hexec := exec_rstregf hx ha
  refine ⟨fun t h => abandons_of_error hexec (by rw [h, bind_error]), fun image himage => ?_⟩
  rw [himage, bind_ok] at hexec
  refine ⟨fun h => ?reserved, fun h => ?zero, fun h => restoredMsrs_refuse h image, fun h => restoredMsrs_storage h image,
    fun h => restoredMsrs_machine h image⟩
  case reserved => rw [hexec, restoreAll_reserved h, finish_exc]
  case zero =>
    have hz := (fullReservedZero_iff image).2 h
    refine ⟨fun t ht => abandons_of_error hexec (restoreAll_of_raises hz ht), fun hcr0 hsccr hm u hu => ?_⟩
    obtain rfl : u = restoreFull s image := hu.trans (restoreFull_supervisor hx image).symm
    rw [restoreAll_of_values hz hcr0 hsccr hm] at hexec
    refine ⟨fun t ht => abandons_of_error hexec (by rw [ht, bind_error]), fun ht => ?_⟩
    rw [ht, bind_ok] at hexec
    have hstop (hlost : keepsOwnMapping s (restoreFull s image) (nextIp s [a]) = false) :
        exec (.rstregf a) s = .fault .mappingChanged := by
      rw [hexec, hlost, require_false, bind_error, finish_stop]
    refine ⟨fun hkeep => ?goesOn, fun hlost => hstop (Bool.eq_false_iff.2 hlost),
      fun p hon hbrCr0 hbrPage hbrMem hoff hmap hne => ?pagingOff⟩
    case goesOn =>
      have hkept : keepsOwnMapping s (restoreFull s image) (nextIp s [a]) = true := by
        obtain hkept | ⟨hs, hu⟩ | ⟨hcr0, hpage⟩ := hkeep
        · exact hkept
        · exact keepsOwnMapping_of_off hs hu _
        · exact keepsOwnMapping_of_same hcr0 hpage (restoreFull_mem s image) (restoreFull_cfg s image) _
      rw [hexec, hkept, require_true, bind_ok, finish_ok]
    case pagingOff => exact hstop (keepsOwnMapping_off_eq_false hon hbrCr0 hbrPage hbrMem hoff hmap hne _)

end Sys2Proof.Machine
end

section
/-!
The decoder against the encoder, the other way round: what each part of the decoder accepts encodes to the bytes that it read; O1 to O4.
-/

namespace Sys2Proof

/-! ### From the encoding (30 R182, R183) -/

/-- Settles O1. -/
theorem decodeEncode : Obligations.DecodeEncode := fun _ rest hwf => decode_encode_append hwf rest

/-- What follows the operands does not change how many bytes they take. -/
theorem operandBytes_encode_append (as : List Operand) (rest : List Byte) :
    operandBytes as.length (operandsEncode as ++ rest) = (operandsEncode as).length := by
  induction as with
  | nil => rfl
  | cons a as ih =>
    rw [operandsEncode_cons, Operand.encode_eq, List.append_assoc, List.append_assoc, List.length_cons, operandBytes_control,
      List.drop_left, ih]
    simp only [List.length_append, bytesBE16_length, Nat.add_assoc]

/-- What follows an encoding does not change how many bytes it takes. -/
theorem Shaped.neededBytes_append {bs : List Byte} (hbs : Shaped bs) (rest : List Byte) : neededBytes (bs ++ rest) = bs.length := by
  cases hbs with
  | operands op h as htail hfew =>
    rw [List.append_assoc, neededBytes_operands _ htail, operandBytes_encode_append, List.length_append, opcodeWord_length]
  | raw op h bs htail heven hfew =>
    rw [List.append_assoc, neededBytes_raw _ htail, List.length_append, opcodeWord_length]

/-- Settles O3: an encoding is shaped as the length rule reads it. -/
theorem encodedLength : Obligations.EncodedLength := fun i rest _ =>
  ⟨(encode_shaped i).neededBytes_append rest, (encode_shaped i).length⟩

theorem decode_of_encode_eq {i : Instr} {bs : List Byte} (hwf : WellFormed i = true) (h : encode i = bs) :
    decode bs = .ok (i, []) := by
  rw [← h, ← List.append_nil (encode i)]
  exact decode_encode_append hwf []

/-- Settles O4: the words of the examples are the encodings of their instructions. -/
theorem decodeSamples : Obligations.DecodeSamples :=
  ⟨decode_of_encode_eq rfl rfl, decode_of_encode_eq rfl rfl, decode_of_encode_eq rfl rfl, decode_of_encode_eq rfl rfl,
    decode_of_encode_eq rfl rfl, decode_of_encode_eq rfl rfl, decode_of_encode_eq rfl rfl, decode_of_encode_eq rfl rfl,
    decode_of_encode_eq rfl rfl, decode_of_encode_eq rfl rfl, decode_of_encode_eq rfl rfl, decode_of_encode_eq rfl rfl,
    decode_of_encode_eq rfl rfl⟩

/-! ### Immediates (30 R189) -/

/-- Bytes are the little-endian bytes of their value (20 R100). -/
theorem bytesLE_valueLE (bs : List Byte) : bytesLE bs.length (valueLE bs) = bs := by
  induction bs with
  | nil => rfl
  | cons b bs ih =>
    have hhead : BitVec.ofNat 8 (b.toNat + 256 * valueLE bs) = b := by
      apply BitVec.eq_of_toNat_eq
      rw [BitVec.toNat_ofNat]
      have := b.isLt
      omega
    have htail : (b.toNat + 256 * valueLE bs) / 256 = valueLE bs := by
      have := b.isLt
      omega
    rw [valueLE, List.length_cons, bytesLE, hhead, htail, ih]

theorem bytesLE_ofNat_valueLE (bs : List Byte) {n w : Nat} (hn : bs.length = n) (hw : 2 ^ w = 256 ^ n) :
    bytesLE n (BitVec.ofNat w (valueLE bs)).toNat = bs := by
  subst hn
  rw [BitVec.toNat_ofNat, hw, Nat.mod_eq_of_lt (Machine.valueLE_lt bs), bytesLE_valueLE]

/-- A decoded immediate has the size asked for, and its bytes are those that were read. -/
theorem decodeImm_ok {ss : BitVec 2} {bs rest : List Byte} {imm : Imm} (h : decodeImm ss bs = .ok (imm, rest)) :
    imm.sizeBits = ss ∧ imm.encode ++ rest = bs := by
  unfold decodeImm at h
  split at h
  · next hss =>
    split at h
    · next b0 b1 tl =>
      obtain ⟨rfl, rfl⟩ := Prod.mk.inj (Except.ok.inj h)
      exact ⟨hss.symm, congrArg (· ++ tl) (bytesLE_ofNat_valueLE (n := 2) [b0, b1] rfl (by decide))⟩
    · cases h
  split at h
  · next hss =>
    split at h
    · next b0 b1 b2 b3 tl =>
      obtain ⟨rfl, rfl⟩ := Prod.mk.inj (Except.ok.inj h)
      exact ⟨hss.symm, congrArg (· ++ tl) (bytesLE_ofNat_valueLE (n := 4) [b0, b1, b2, b3] rfl (by decide))⟩
    · cases h
  split at h
  · next hss =>
    split at h
    · next b0 b1 b2 b3 b4 b5 b6 b7 tl =>
      obtain ⟨rfl, rfl⟩ := Prod.mk.inj (Except.ok.inj h)
      exact ⟨hss.symm, congrArg (· ++ tl) (bytesLE_ofNat_valueLE (n := 8) [b0, b1, b2, b3, b4, b5, b6, b7] rfl (by decide))⟩
    · cases h
  · cases h

/-! ### Operands (30 R185 to R190) -/

@[simp] theorem Size.toBits_ofBits : ∀ ss : BitVec 2, (Size.ofBits ss).toBits = ss := by decide

/-- One bit of a word as a field. -/
theorem bit1_getLsbD {n : Nat} (c : BitVec n) (k : Nat) : bit1 (c.getLsbD k) = c.extractLsb' k 1 := by
  apply BitVec.eq_of_getLsbD_eq
  intro i hi
  obtain rfl : i = 0 := by omega
  cases h : c.getLsbD k <;> simp [bit1, h]

theorem bit1_of_getLsbD {n : Nat} {c : BitVec n} {k : Nat} {b : Bool} (h : c.getLsbD k = b) : bit1 b = c.extractLsb' k 1 := by
  rw [← h, bit1_getLsbD]

section
variable (c : BitVec 16)

/-- A word is the fields of a register operand (30 R186). -/
theorem regFields_join : c.extractLsb' 14 2 ++ c.extractLsb' 10 4 ++ c.extractLsb' 8 2 ++ c.extractLsb' 0 8 = c := by
  apply BitVec.eq_of_toNat_eq
  simp only [BitVec.extractLsb'_toNat, toNat_append_add, Nat.shiftRight_eq_div_pow]
  omega

/-- A word is the fields of an indirect register operand (30 R187). -/
theorem indFields_join : c.extractLsb' 14 2 ++ c.extractLsb' 10 4 ++ c.extractLsb' 7 3 ++ c.extractLsb' 6 1 ++ c.extractLsb' 4 2 ++
    c.extractLsb' 0 4 = c := by
  apply BitVec.eq_of_toNat_eq
  simp only [BitVec.extractLsb'_toNat, toNat_append_add, Nat.shiftRight_eq_div_pow]
  omega

/-- A word is the fields of a short immediate (30 R188). -/
theorem shortFields_join : c.extractLsb' 14 2 ++ c.extractLsb' 13 1 ++ c.extractLsb' 12 1 ++ c.extractLsb' 0 12 = c := by
  apply BitVec.eq_of_toNat_eq
  simp only [BitVec.extractLsb'_toNat, toNat_append_add, Nat.shiftRight_eq_div_pow]
  omega

/-- A word is the fields of a long immediate or memory reference (30 R189). -/
theorem longFields_join : c.extractLsb' 14 2 ++ c.extractLsb' 13 1 ++ c.extractLsb' 11 2 ++ c.extractLsb' 10 1 ++ c.extractLsb' 8 2 ++
    c.extractLsb' 6 2 ++ c.extractLsb' 4 2 ++ c.extractLsb' 0 4 = c := by
  apply BitVec.eq_of_toNat_eq
  simp only [BitVec.extractLsb'_toNat, toNat_append_add, Nat.shiftRight_eq_div_pow]
  omega

variable {c} {bs rest : List Byte} {a : Operand}

/-- An operand whose control structure and immediate were read encodes to the bytes read. -/
theorem Operand.encode_append_of (hcontrol : a.control = c) (himm : a.immediate ++ rest = bs) :
    a.encode ++ rest = bytesBE16 c ++ bs := by
  rw [Operand.encode_eq, hcontrol, List.append_assoc, himm]

theorem decodeReg_ok (hform : c.extractLsb' 14 2 = 0#2) (h : decodeReg c bs = .ok (a, rest)) :
    a.encode ++ rest = bytesBE16 c ++ bs := by
  unfold decodeReg at h
  split at h
  · next hzero =>
    obtain ⟨rfl, rfl⟩ := Prod.mk.inj (Except.ok.inj h)
    refine Operand.encode_append_of ?_ rfl
    rw [Operand.control, Size.toBits_ofBits, ← hform, ← hzero, regFields_join]
  · cases h

theorem decodeInd_ok (hform : c.extractLsb' 14 2 = 1#2) (h : decodeInd c bs = .ok (a, rest)) :
    a.encode ++ rest = bytesBE16 c ++ bs := by
  obtain ⟨rfl, rfl⟩ := Prod.mk.inj (Except.ok.inj h)
  refine Operand.encode_append_of ?_ rfl
  cases hk : c.getLsbD 6 with
  | false =>
    rw [if_neg (by simp), Operand.control, Size.toBits_ofBits, ← hform, bit1_of_getLsbD hk, indFields_join]
  | true =>
    rw [if_pos rfl, Operand.control, Size.toBits_ofBits, ← hform, bit1_of_getLsbD hk, indFields_join]

theorem decodeShort_ok (hform : c.extractLsb' 14 2 = 2#2) (h : decodeShort c bs = .ok (a, rest)) :
    a.encode ++ rest = bytesBE16 c ++ bs := by
  unfold decodeShort at h
  split at h
  · cases h
  · next hzero =>
    obtain ⟨rfl, rfl⟩ := Prod.mk.inj (Except.ok.inj h)
    refine Operand.encode_append_of ?_ rfl
    rw [Operand.control, ← hform, bit1_of_getLsbD (Bool.eq_false_iff.2 hzero), bit1_getLsbD, shortFields_join]

end

/-- A sequence of decoding parts answers exactly if each part does. -/
theorem decode_bind_ok_iff {α β : Type} (x : Except DecodeError α) (f : α → Except DecodeError β) (b : β) :
    (x >>= f) = .ok b ↔ ∃ a, x = .ok a ∧ f a = .ok b := by
  cases x <;> simp [bind, Except.bind]

theorem decodeLong_ok {c : BitVec 16} {bs rest : List Byte} {a : Operand} (hform : c.extractLsb' 14 2 = 3#2)
    (h : decodeLong c bs = .ok (a, rest)) : a.encode ++ rest = bytesBE16 c ++ bs := by
  unfold decodeLong at h
  split at h
  case isFalse => cases h
  next hzero =>
  obtain ⟨hy, hz, hlow⟩ := hzero
  split at h
  · next hm =>
    obtain ⟨⟨imm, tl⟩, himm, h⟩ := (decode_bind_ok_iff _ _ _).1 h
    obtain ⟨rfl, rfl⟩ := Prod.mk.inj (Except.ok.inj h)
    obtain ⟨hss, himm⟩ := decodeImm_ok himm
    refine Operand.encode_append_of ?_ himm
    rw [Operand.control, Size.toBits_ofBits, hss, ← hform, bit1_of_getLsbD hm, bit1_getLsbD]
    have := longFields_join c
    rwa [hy, hz, hlow] at this
  · next hm =>
    split at h
    case isFalse => cases h
    next hsz =>
    obtain ⟨⟨imm, tl⟩, himm, h⟩ := (decode_bind_ok_iff _ _ _).1 h
    obtain ⟨rfl, rfl⟩ := Prod.mk.inj (Except.ok.inj h)
    obtain ⟨hss, himm⟩ := decodeImm_ok himm
    refine Operand.encode_append_of ?_ himm
    rw [Operand.control, hss, ← hform, bit1_of_getLsbD (Bool.eq_false_iff.2 hm), bit1_getLsbD]
    have := longFields_join c
    rwa [hy, hz, hsz, hlow] at this

/-- Two bytes are the word that they make. -/
theorem two_bytes (b0 b1 : Byte) (bs : List Byte) : b0 :: b1 :: bs = bytesBE16 (b0 ++ b1) ++ bs := by
  rw [bytesBE16, BitVec.extractLsb'_append_eq_left, BitVec.extractLsb'_append_eq_right]
  rfl

/-- A decoded operand encodes to the bytes that were read (30 R190). -/
theorem decodeOperand_ok {bs rest : List Byte} {a : Operand} (h : decodeOperand bs = .ok (a, rest)) : a.encode ++ rest = bs := by
  match bs with
  | [] => cases h
  | [_] => cases h
  | b0 :: b1 :: tl =>
  rw [two_bytes] at h ⊢
  rw [decodeOperand_word] at h
  split at h
  · next h0 => exact decodeReg_ok h0 h
  next h0 =>
  split at h
  · next h1 => exact decodeInd_ok h1 h
  next h1 =>
  split at h
  · next h2 => exact decodeShort_ok h2 h
  next h2 =>
  have h3 : ∀ form : BitVec 2, form ≠ 0#2 → form ≠ 1#2 → form ≠ 2#2 → form = 3#2 := by decide
  exact decodeLong_ok (h3 _ h0 h1 h2) h

/-! ### Faithful parts of the decoder (30 R181, R190) -/

/-- What a part of the decoder answers for the bytes `bs` is a well-formed instruction, and its encoding and the bytes left over are `bs`. -/
def Faithful (bs : List Byte) (r : DecodeResult) : Prop :=
  ∀ i rest, r = .ok (i, rest) → WellFormed i = true ∧ encode i ++ rest = bs

theorem faithful_error (bs : List Byte) (e : DecodeError) : Faithful bs (.error e) :=
  fun _ _ h => absurd h (by simp)

section
variable {op : BitVec 12} {h : BitVec 4} {bs : List Byte}

theorem faithful_none {i : Instr} (hwf : WellFormed i = true) (henc : encode i = opcodeWord op h) :
    Faithful (opcodeWord op h ++ bs) (decode0 i bs) := by
  intro j rest hj
  obtain ⟨rfl, rfl⟩ := Prod.mk.inj (Except.ok.inj hj)
  exact ⟨hwf, by rw [henc]⟩

theorem faithful_one {k : Operand → Instr} (hwf : ∀ a, WellFormed (k a) = true)
    (henc : ∀ a, encode (k a) = opcodeWord op h ++ a.encode) : Faithful (opcodeWord op h ++ bs) (decode1 k bs) := by
  intro i rest hi
  obtain ⟨⟨a, tl⟩, ha, hi⟩ := (decode_bind_ok_iff _ _ _).1 hi
  obtain ⟨rfl, rfl⟩ := Prod.mk.inj (Except.ok.inj hi)
  exact ⟨hwf a, by rw [henc, List.append_assoc, decodeOperand_ok ha]⟩

theorem faithful_two {k : Operand → Operand → Instr} (hwf : ∀ a b, WellFormed (k a b) = true)
    (henc : ∀ a b, encode (k a b) = opcodeWord op h ++ a.encode ++ b.encode) : Faithful (opcodeWord op h ++ bs) (decode2 k bs) := by
  intro i rest hi
  obtain ⟨⟨a, ta⟩, ha, hi⟩ := (decode_bind_ok_iff _ _ _).1 hi
  obtain ⟨⟨b, tb⟩, hb, hi⟩ := (decode_bind_ok_iff _ _ _).1 hi
  obtain ⟨rfl, rfl⟩ := Prod.mk.inj (Except.ok.inj hi)
  exact ⟨hwf a b, by rw [henc, List.append_assoc, List.append_assoc, decodeOperand_ok hb, decodeOperand_ok ha]⟩

theorem faithful_three {k : Operand → Operand → Operand → Instr} (hwf : ∀ a b c, WellFormed (k a b c) = true)
    (henc : ∀ a b c, encode (k a b c) = opcodeWord op h ++ a.encode ++ b.encode ++ c.encode) :
    Faithful (opcodeWord op h ++ bs) (decode3 k bs) := by
  intro i rest hi
  obtain ⟨⟨a, ta⟩, ha, hi⟩ := (decode_bind_ok_iff _ _ _).1 hi
  obtain ⟨⟨b, tb⟩, hb, hi⟩ := (decode_bind_ok_iff _ _ _).1 hi
  obtain ⟨⟨c, tc⟩, hc, hi⟩ := (decode_bind_ok_iff _ _ _).1 hi
  obtain ⟨rfl, rfl⟩ := Prod.mk.inj (Except.ok.inj hi)
  exact ⟨hwf a b c, by
    rw [henc, List.append_assoc, List.append_assoc, List.append_assoc, decodeOperand_ok hc, decodeOperand_ok hb, decodeOperand_ok ha]⟩

/-! ### The fields of `h` -/

theorem hLF_join : ∀ h : BitVec 4, h.extractLsb' 1 2 = 0#2 → hLF (h.getLsbD 3) (h.getLsbD 0) = h := by decide

theorem hF_join : ∀ h : BitVec 4, h.extractLsb' 1 3 = 0#3 → hLF false (h.getLsbD 0) = h := by decide

theorem hSWF_join : ∀ h : BitVec 4, hSWF (.ofBits (h.extractLsb' 2 2)) (h.getLsbD 1) (h.getLsbD 0) = h := by decide

theorem hSS_join : ∀ h : BitVec 4, h.extractLsb' 2 2 = 0#2 → hSS (.ofBits (h.extractLsb' 0 2)) = h := by decide

@[simp] theorem Cond.code_ofCode : ∀ c : BitVec 4, (Cond.ofCode c).code = c := by decide

theorem faithful_h0 {r : DecodeResult} (hr : Faithful (opcodeWord op 0 ++ bs) r) : Faithful (opcodeWord op h ++ bs) (withH0 h r) := by
  unfold withH0
  split
  · next hzero => rwa [hzero]
  · exact faithful_error _ _

theorem faithful_lf {k : Bool → Bool → DecodeResult} (hk : ∀ l f, Faithful (opcodeWord op (hLF l f) ++ bs) (k l f)) :
    Faithful (opcodeWord op h ++ bs) (withLF h k) := by
  unfold withLF
  split
  · next hzero =>
    have := hk (h.getLsbD 3) (h.getLsbD 0)
    rwa [hLF_join h hzero] at this
  · exact faithful_error _ _

theorem faithful_f {k : Bool → DecodeResult} (hk : ∀ f, Faithful (opcodeWord op (hLF false f) ++ bs) (k f)) :
    Faithful (opcodeWord op h ++ bs) (withF h k) := by
  unfold withF
  split
  · next hzero =>
    have := hk (h.getLsbD 0)
    rwa [hF_join h hzero] at this
  · exact faithful_error _ _

theorem faithful_sf {k : Size → Bool → DecodeResult} (hk : ∀ ss f, Faithful (opcodeWord op (hSWF ss false f) ++ bs) (k ss f)) :
    Faithful (opcodeWord op h ++ bs) (withSF h k) := by
  unfold withSF
  split
  · exact faithful_error _ _
  · next hzero =>
    have := hk (.ofBits (h.extractLsb' 2 2)) (h.getLsbD 0)
    rwa [← Bool.eq_false_iff.2 hzero, hSWF_join] at this

theorem faithful_ss {k : Size → DecodeResult} (hk : ∀ ss, Faithful (opcodeWord op (hSS ss) ++ bs) (k ss)) :
    Faithful (opcodeWord op h ++ bs) (withSS h k) := by
  unfold withSS
  split
  · next hzero =>
    have := hk (.ofBits (h.extractLsb' 0 2))
    rwa [hSS_join h hzero] at this
  · exact faithful_error _ _

theorem faithful_div {k : Size → Bool → Bool → Instr} (hwf : ∀ ss w f, WellFormed (k ss w f) = true)
    (henc : ∀ ss w f, encode (k ss w f) = opcodeWord op (hSWF ss w f)) :
    Faithful (opcodeWord op h ++ bs) (decode0 (k (.ofBits (h.extractLsb' 2 2)) (h.getLsbD 1) (h.getLsbD 0)) bs) :=
  faithful_none (hwf _ _ _) (by rw [henc, hSWF_join])

end

/-! ### Followers (42 R331) -/

/-- The word of an opcode and an `h` field, in numbers. -/
theorem opcodeWord_toNat (op : BitVec 12) (h : BitVec 4) : (op ++ h).toNat / 16 = op.toNat ∧ (op ++ h).toNat % 16 = h.toNat := by
  rw [toNat_append_add]
  have := h.isLt
  omega

/-- A follower, legal or not, is well-formed and encodes to its word. -/
theorem decodeFollower_faithful (op : BitVec 12) (h : BitVec 4) :
    (decodeFollower op h).wellFormed = true ∧ (decodeFollower op h).encode = opcodeWord op h := by
  obtain ⟨hop, hh⟩ := opcodeWord_toNat op h
  unfold decodeFollower
  split
  · next hzero =>
    have hlegal {n : Nat} (hn : op.toNat = n) : opcodeWord (BitVec.ofNat 12 n) (hSS (.ofBits (h.extractLsb' 0 2))) = opcodeWord op h := by
      rw [hSS_join h hzero, ← hn, BitVec.ofNat_toNat, BitVec.setWidth_eq]
    split
    case h_8 =>
      refine ⟨?_, (opcodeWord_eq op h).symm⟩
      have hfollower : isFollowerWord (op ++ h) = false := by
        simp only [isFollowerWord, hop, Bool.and_eq_false_iff, Bool.or_eq_false_iff, decide_eq_false_iff_not]
        simp only [imp_false] at *
        omega
      rw [Follower.wellFormed, hfollower]
      rfl
    all_goals exact ⟨rfl, hlegal ‹_›⟩
  · next hset =>
    refine ⟨?_, (opcodeWord_eq op h).symm⟩
    have hge : ¬ h.toNat < 4 := by
      intro hlt
      refine hset (BitVec.eq_of_toNat_eq ?_)
      simp only [BitVec.extractLsb'_toNat, Nat.shiftRight_eq_div_pow, BitVec.toNat_ofNat]
      omega
    rw [Follower.wellFormed, isFollowerWord, hh, decide_eq_false hge]
    rfl

theorem faithful_rep {op : BitVec 12} {h : BitVec 4} {bs : List Byte} {k : Cond → Follower → Instr}
    (hwf : ∀ cc fo, WellFormed (k cc fo) = fo.wellFormed)
    (henc : ∀ cc fo, encode (k cc fo) = opcodeWord op cc.code ++ fo.encode) :
    Faithful (opcodeWord op h ++ bs) (decodeRep (k (.ofCode h)) bs) := by
  match bs with
  | [] => exact faithful_error _ _
  | [_] => exact faithful_error _ _
  | b0 :: b1 :: tl =>
    intro i rest hi
    rw [two_bytes, bytesBE16_eq_opcodeWord] at hi ⊢
    rw [decodeRep_word] at hi
    obtain ⟨rfl, rfl⟩ := Prod.mk.inj (Except.ok.inj hi)
    obtain ⟨hfo, hword⟩ := decodeFollower_faithful ((b0 ++ b1).extractLsb' 4 12) ((b0 ++ b1).extractLsb' 0 4)
    exact ⟨(hwf _ _).trans hfo, by rw [henc, Cond.code_ofCode, hword, List.append_assoc]⟩

/-! ### The blocks of opcodes (30 R220) -/

/-- Opcodes 0x000 to 0x0ff, grouped by what their rows have: fields of `h`, operands, a follower. -/
theorem decodeLow_faithful (n : Nat) (h : BitVec 4) (bs : List Byte) :
    Faithful (opcodeWord (BitVec.ofNat 12 n) h ++ bs) (decodeLow n h bs) := by
  fun_cases decodeLow n h bs
  case case1 | case20 | case21 | case67 | case68 => exact faithful_none rfl rfl
  case case14 | case26 | case27 | case28 | case29 => exact faithful_h0 (faithful_none rfl rfl)
  case case7 | case53 => exact faithful_sf fun _ _ => faithful_none rfl rfl
  case case8 | case61 => exact faithful_div (fun _ _ _ => rfl) fun _ _ _ => rfl
  case case34 | case35 | case36 | case37 | case38 => exact faithful_ss fun _ => faithful_none rfl rfl
  case case11 | case12 | case13 | case46 | case47 | case48 | case49 | case50 | case51 | case52 | case54 | case55 | case56 |
    case57 | case58 | case62 | case63 | case64 | case65 | case66 | case71 | case72 =>
    exact faithful_one (fun _ => rfl) fun _ => rfl
  case case15 | case18 | case19 | case22 | case23 | case24 | case25 =>
    exact faithful_h0 (faithful_one (fun _ => rfl) fun _ => rfl)
  case case59 | case60 => exact faithful_lf fun _ _ => faithful_one (fun _ => rfl) fun _ => rfl
  case case9 | case10 | case16 | case69 | case70 => exact faithful_h0 (faithful_two (fun _ _ => rfl) fun _ _ => rfl)
  case case2 | case3 | case4 | case5 | case6 | case39 | case40 | case41 | case42 | case43 | case44 | case45 =>
    exact faithful_lf fun _ _ => faithful_two (fun _ _ => rfl) fun _ _ => rfl
  case case30 | case31 => exact faithful_f fun _ => faithful_two (fun _ _ => rfl) fun _ _ => rfl
  case case17 => exact faithful_h0 (faithful_three (fun _ _ _ => rfl) fun _ _ _ => rfl)
  case case32 | case33 => exact faithful_rep (fun _ _ => rfl) fun _ _ => rfl
  case case73 => exact faithful_error _ _

/-- Opcodes 0x200 to 0x2ff (44 R401). -/
theorem decodeAtomic_faithful (n : Nat) (h : BitVec 4) (bs : List Byte) :
    Faithful (opcodeWord (BitVec.ofNat 12 (0x200 + n)) h ++ bs) (decodeAtomic n h bs) := by
  fun_cases decodeAtomic n h bs
  case case1 => exact faithful_h0 (faithful_two (fun _ _ => rfl) fun _ _ => rfl)
  case case2 | case3 => exact faithful_h0 (faithful_three (fun _ _ _ => rfl) fun _ _ _ => rfl)
  case case4 => exact faithful_h0 (faithful_none rfl rfl)
  case case5 => exact faithful_error _ _

/-- Opcodes 0x800 to 0x8ff (46 R470). -/
theorem decodeSystem_faithful (n : Nat) (h : BitVec 4) (bs : List Byte) :
    Faithful (opcodeWord (BitVec.ofNat 12 (0x800 + n)) h ++ bs) (decodeSystem n h bs) := by
  fun_cases decodeSystem n h bs
  case case1 | case2 | case3 => exact faithful_h0 (faithful_none rfl rfl)
  case case4 | case5 | case8 | case9 => exact faithful_h0 (faithful_one (fun _ => rfl) fun _ => rfl)
  case case6 | case7 => exact faithful_ss fun _ => faithful_none rfl rfl
  case case10 => exact faithful_error _ _

/-- A machine-specific opcode is its high bits and its low five (46 R475). -/
theorem machineSpecific_join (op : BitVec 12) : op.extractLsb' 5 7 ++ op.extractLsb' 0 5 = op :=
  (BitVec.extractLsb'_append_extractLsb'_eq_extractLsb' rfl).trans BitVec.extractLsb'_eq_self

/-- Opcodes 0xf00 to 0xfff (46 R471, R472, R475, 40 R240). -/
theorem decodeTop_faithful (op : BitVec 12) (h : BitVec 4) (bs : List Byte) :
    Faithful (opcodeWord op h ++ bs) (decodeTop op h bs) := by
  unfold decodeTop
  split
  · next hop => exact hop ▸ faithful_h0 (faithful_none rfl rfl)
  split
  · next hop => exact hop ▸ faithful_h0 (faithful_none rfl rfl)
  split
  · next hop => exact hop ▸ faithful_none rfl rfl
  next hfff =>
  split
  · next hhigh =>
    have hjoin := machineSpecific_join op
    rw [hhigh] at hjoin
    refine faithful_none (bne_iff_ne.2 fun hlow => hfff ?_) (by rw [encode, hjoin])
    rw [← hjoin, hlow]
    rfl
  · exact faithful_error _ _

/-! ### Branches (45 R420) -/

theorem encode_condBranch (cc : Cond) (rel : Bool) (weight : BitVec 4) (imm : Imm) :
    WellFormed (condBranch cc rel weight imm) = true ∧ encode (condBranch cc rel weight imm) = encodeCond cc rel weight imm := by
  cases imm <;> cases cc <;> exact ⟨rfl, rfl⟩

theorem decodeCond_eq (ss : BitVec 2) (cc : Cond) (rel : Bool) (weight : BitVec 4) (bs : List Byte) :
    decodeCond ss cc rel weight bs = (do
      let p ← decodeImm ss bs
      .ok (condBranch cc rel weight p.1, p.2)) := by
  rw [decodeCond]
  cases decodeImm ss bs with
  | error e => rfl
  | ok p =>
    obtain ⟨imm, rest⟩ := p
    cases imm <;> rfl

theorem decodeCond_faithful (ss : BitVec 2) (c : BitVec 4) (rel : Bool) (weight : BitVec 4) (bs : List Byte) :
    Faithful (opcodeWord (7#4 ++ ss ++ 0#1 ++ bit1 rel ++ c) weight ++ bs) (decodeCond ss (.ofCode c) rel weight bs) := by
  intro i rest hi
  rw [decodeCond_eq] at hi
  obtain ⟨⟨imm, tl⟩, himm, hi⟩ := (decode_bind_ok_iff _ _ _).1 hi
  obtain ⟨rfl, rfl⟩ := Prod.mk.inj (Except.ok.inj hi)
  obtain ⟨hss, himm⟩ := decodeImm_ok himm
  obtain ⟨hwf, henc⟩ := encode_condBranch (.ofCode c) rel weight imm
  exact ⟨hwf, by rw [henc, encodeCond, hss, Cond.code_ofCode, List.append_assoc, himm]⟩

/-- The fields of `h` before a branch immediate make `h`. -/
theorem branchH_join : ∀ h : BitVec 4, h.getLsbD 2 = false → bit1 (h.getLsbD 3) ++ 0#1 ++ h.extractLsb' 0 2 = h := by decide

/-- The same where `v` may not be set. -/
theorem branchH_zero_join : ∀ h : BitVec 4, h.extractLsb' 2 2 = 0#2 → bit1 false ++ 0#1 ++ h.extractLsb' 0 2 = h := by decide

section
variable {rel : Bool} {o h : BitVec 4} {bs : List Byte}

theorem faithful_branchImm {k : Imm → Instr} (hwf : ∀ imm, WellFormed (k imm) = true)
    (henc : ∀ imm, encode (k imm) = encodeUncondImm rel o false imm) :
    Faithful (encodeUncond rel o h ++ bs) (decodeBranchImm h k bs) := by
  unfold decodeBranchImm
  split
  · next hzero =>
    intro i rest hi
    obtain ⟨⟨imm, tl⟩, himm, hi⟩ := (decode_bind_ok_iff _ _ _).1 hi
    obtain ⟨rfl, rfl⟩ := Prod.mk.inj (Except.ok.inj hi)
    obtain ⟨hss, himm⟩ := decodeImm_ok himm
    exact ⟨hwf imm, by rw [henc, encodeUncondImm, hss, branchH_zero_join h hzero, List.append_assoc, himm]⟩
  · exact faithful_error _ _

theorem decodeCallsm_faithful : Faithful (encodeUncond rel 0xc h ++ bs) (decodeCallsm h rel bs) := by
  unfold decodeCallsm
  split
  · exact faithful_error _ _
  · next hzero =>
    intro i rest hi
    obtain ⟨⟨imm, tl⟩, himm, hi⟩ := (decode_bind_ok_iff _ _ _).1 hi
    obtain ⟨rfl, rfl⟩ := Prod.mk.inj (Except.ok.inj hi)
    obtain ⟨hss, himm⟩ := decodeImm_ok himm
    exact ⟨rfl, by rw [encode, encodeUncondImm, hss, branchH_join h (Bool.eq_false_iff.2 hzero), List.append_assoc, himm]⟩

theorem faithful_notRel {r : DecodeResult} (hr : Faithful (encodeUncond false o h ++ bs) r) :
    Faithful (encodeUncond rel o h ++ bs) (notRel rel r) := by
  cases rel with
  | false => exact hr
  | true => exact faithful_error _ _

end

/-- Of the two named forms and the plain one, the one that `h` tells (45 R437). -/
theorem encode_ijmpForm (rel : Bool) (h : BitVec 4) :
    WellFormed (ijmpForm rel h) = true ∧ encode (ijmpForm rel h) = encodeUncond rel 0x8 h := by
  unfold ijmpForm
  split
  · next hfret => exact ⟨rfl, by rw [hfret]; rfl⟩
  split
  · next hifjmp => exact ⟨rfl, by rw [hifjmp]; rfl⟩
  · next hfret hifjmp =>
    exact ⟨by rw [WellFormed, bne_iff_ne.2 hfret, bne_iff_ne.2 hifjmp]; rfl, rfl⟩

theorem decodeUncond_faithful (rel : Bool) (n : Nat) (h : BitVec 4) (bs : List Byte) :
    Faithful (encodeUncond rel (BitVec.ofNat 4 n) h ++ bs) (decodeUncond rel n h bs) := by
  fun_cases decodeUncond rel n h bs
  case case1 | case2 | case3 | case10 => exact faithful_branchImm (fun _ => rfl) fun _ => rfl
  case case4 | case5 | case12 => exact faithful_notRel (faithful_h0 (faithful_none rfl rfl))
  case case6 => exact faithful_notRel (faithful_none rfl rfl)
  case case7 => exact faithful_none (encode_ijmpForm rel h).1 (encode_ijmpForm rel h).2
  case case8 => exact faithful_none rfl rfl
  case case9 => exact faithful_h0 (faithful_none rfl rfl)
  case case11 => exact decodeCallsm_faithful
  case case13 => exact faithful_error _ _

/-- The opcode of a branch is its fields. -/
theorem branchOp_join {op : BitVec 12} (hblock : op.extractLsb' 8 4 = 7#4) (hbit5 : op.getLsbD 5 = false) :
    7#4 ++ op.extractLsb' 6 2 ++ 0#1 ++ bit1 (op.getLsbD 4) ++ op.extractLsb' 0 4 = op := by
  have hzero : 0#1 = op.extractLsb' 5 1 := bit1_of_getLsbD hbit5
  rw [hzero, bit1_getLsbD, ← hblock]
  apply BitVec.eq_of_toNat_eq
  simp only [BitVec.extractLsb'_toNat, toNat_append_add, Nat.shiftRight_eq_div_pow]
  omega

/-- Opcodes 0x700 to 0x7ff (45 R420). -/
theorem decodeBranch_faithful {op : BitVec 12} (hblock : op.extractLsb' 8 4 = 7#4) (h : BitVec 4) (bs : List Byte) :
    Faithful (opcodeWord op h ++ bs) (decodeBranch op h bs) := by
  unfold decodeBranch
  split
  · exact faithful_error _ _
  next hbit5 =>
  have hjoin := branchOp_join hblock (Bool.eq_false_iff.2 hbit5)
  split
  · next hss =>
    have := decodeUncond_faithful (op.getLsbD 4) (op.extractLsb' 0 4).toNat h bs
    rwa [encodeUncond, BitVec.ofNat_toNat, BitVec.setWidth_eq, ← hss, hjoin] at this
  · have := decodeCond_faithful (op.extractLsb' 6 2) (op.extractLsb' 0 4) (op.getLsbD 4) h bs
    rwa [hjoin] at this

/-! ### The whole decoder -/

/-- An opcode is its block and its place in the block. -/
theorem opcode_join {op : BitVec 12} {k : Nat} (hblock : (op.extractLsb' 8 4).toNat = k) :
    BitVec.ofNat 12 (256 * k + (op.extractLsb' 0 8).toNat) = op := by
  apply BitVec.eq_of_toNat_eq
  simp only [BitVec.extractLsb'_toNat, BitVec.toNat_ofNat, Nat.shiftRight_eq_div_pow] at hblock ⊢
  omega

theorem decodeWord_faithful (op : BitVec 12) (h : BitVec 4) (bs : List Byte) :
    Faithful (opcodeWord op h ++ bs) (decodeWord op h bs) := by
  have hplace (k : Nat) (hblock : (op.extractLsb' 8 4).toNat = k) {r : DecodeResult}
      (hr : Faithful (opcodeWord (BitVec.ofNat 12 (256 * k + (op.extractLsb' 0 8).toNat)) h ++ bs) r) :
      Faithful (opcodeWord op h ++ bs) r := by
    rwa [opcode_join hblock] at hr
  unfold decodeWord
  split
  case h_1 hblock => exact hplace 0 hblock (by rw [Nat.mul_zero, Nat.zero_add]; exact decodeLow_faithful _ h bs)
  case h_2 hblock => exact hplace 2 hblock (decodeAtomic_faithful _ h bs)
  case h_3 hblock => exact decodeBranch_faithful (BitVec.eq_of_toNat_eq hblock) h bs
  case h_4 hblock => exact hplace 8 hblock (decodeSystem_faithful _ h bs)
  case h_5 => exact decodeTop_faithful op h bs
  case h_6 => exact faithful_error _ _

/-- Settles O2: every part of the decoder is faithful to the bytes that it reads. -/
theorem encodeDecode : Obligations.EncodeDecode := by
  intro bs rest i hi
  match bs with
  | [] => cases hi
  | [_] => cases hi
  | b0 :: b1 :: tl =>
  rw [two_bytes, bytesBE16_eq_opcodeWord] at hi ⊢
  rw [decode_opcodeWord] at hi
  exact decodeWord_faithful _ _ _ i rest hi

end Sys2Proof
end

section
/-!
The gpr forms of the ALU instructions, the moves, and the unary and compare instructions: what their shared operations answer and raise;
O34, O37, O47, O48.
-/

namespace Sys2Proof.Machine

/-! ### Sizes of operands (30 R200, R211) -/

theorem bitsOf_le (a : Operand) : bitsOf a ≤ 64 := by
  cases a with
  | reg sz r => exact sizeBits_le sz
  | ind i k sz b => exact sizeBits_le sz
  | mref rel imm sz => exact sizeBits_le sz
  | short rel i => cases rel <;> simp [bitsOf]
  | long rel imm =>
    have := imm.bytes_le
    cases rel with
    | true => exact Nat.le_refl 64
    | false => show 8 * imm.bytes ≤ 64; omega

theorem impliedBits_le (a : Operand) : impliedBits a ≤ 64 := by
  unfold impliedBits
  split
  · exact Nat.le_refl 64
  · exact bitsOf_le a

/-- Beside an operand the implied gpr is at least as wide (30 R211). -/
theorem bitsOf_le_impliedBits (a : Operand) : bitsOf a ≤ impliedBits a := by
  unfold impliedBits
  split
  · exact bitsOf_le a
  · exact Nat.le_refl _

/-- An operand that can be written has one of the four sizes (30 R200, R201). -/
theorem bitsOf_writable {a : Operand} (h : isWritable a = true) : ∃ sz : Size, bitsOf a = sizeBits sz := by
  cases a with
  | reg sz r => exact ⟨sz, rfl⟩
  | ind i k sz b => exact ⟨sz, rfl⟩
  | mref rel imm sz => exact ⟨sz, rfl⟩
  | short | long => cases h

/-- So has the implied gpr (30 R211). -/
theorem impliedBits_size (a : Operand) : ∃ sz : Size, impliedBits a = sizeBits sz := by
  cases a with
  | reg sz r => exact ⟨sz, rfl⟩
  | ind i k sz b => exact ⟨sz, rfl⟩
  | mref rel imm sz => exact ⟨sz, rfl⟩
  | short | long => exact ⟨.b64, rfl⟩

/-! ### Results as numbers (00 R12) -/

/-- The low bits of a value are told by their number. -/
theorem eq_trunc {d : Nat} (hd : d ≤ 64) {v r : Word} (h : r.toNat = v.toNat % 2 ^ d) : r = trunc d v :=
  BitVec.eq_of_toNat_eq (h.trans (trunc_toNat hd v).symm)

/-- A value of `d` bits is its own low bits. -/
theorem trunc_of_lt {d : Nat} (hd : d ≤ 64) {v : Word} (h : v.toNat < 2 ^ d) : trunc d v = v :=
  (eq_trunc hd (Nat.mod_eq_of_lt h).symm).symm

/-- Computing modulo 2^64 first does not change a result modulo 2^d. -/
theorem mod_word_mod {d : Nat} (hd : d ≤ 64) (n : Nat) : n % 2 ^ 64 % 2 ^ d = n % 2 ^ d :=
  Nat.mod_mod_of_dvd n (Nat.pow_dvd_pow 2 hd)

/-- A difference modulo 2^d, as an integer. -/
theorem trunc_sub_toNat {d : Nat} (hd : d ≤ 64) (x y : Word) :
    ((trunc d (x - y)).toNat : Int) = ((x.toNat : Int) - (y.toNat : Int)) % (2 ^ d : Int) := by
  have hy : y.toNat ≤ 2 ^ 64 := y.isLt.le
  obtain ⟨k, hk⟩ : ((2 : Int) ^ d) ∣ 2 ^ 64 := pow_dvd_pow 2 hd
  have hdiff : ((2 ^ 64 - y.toNat + x.toNat : Nat) : Int) = (x.toNat - y.toNat) + 2 ^ d * k := by
    rw [← hk]
    omega
  rw [trunc_toNat hd, BitVec.toNat_sub, mod_word_mod hd, Int.natCast_mod, hdiff, Nat.cast_pow, Nat.cast_ofNat,
    Int.add_mul_emod_self_left]

/-- The result of an ALU operation is the low bits of the 64-bit operation (40 R242). -/
theorem resultIs_iff {d : Nat} (hd : d ≤ 64) (op : AluOp) (x y r : Word) : op.ResultIs d x y r ↔ r = trunc d (op.apply x y) := by
  cases op with
  | add =>
    rw [AluOp.ResultIs, BitVec.toNat_eq, trunc_toNat hd, AluOp.apply, BitVec.toNat_add, mod_word_mod hd]
  | sub =>
    rw [AluOp.ResultIs, ← trunc_sub_toNat hd, BitVec.toNat_eq, Int.natCast_inj]
    rfl
  | and => rw [AluOp.ResultIs, BitVec.toNat_eq, trunc_toNat hd, AluOp.apply, BitVec.toNat_and]
  | or => rw [AluOp.ResultIs, BitVec.toNat_eq, trunc_toNat hd, AluOp.apply, BitVec.toNat_or]
  | xor => rw [AluOp.ResultIs, BitVec.toNat_eq, trunc_toNat hd, AluOp.apply, BitVec.toNat_xor]

/-! ### Reading one operand, and reading and writing it (30 R208, R209) -/

section
variable {β : Type} {s : State} {n : Word} {a : Operand} {x : Word} {dst : Dest} {t : Trap}

/-- An operand that is read: its check, then the load. -/
theorem read_then {f : Word → Except Trap β} (h : Reads s n a x) : (do opReadCheck s a; let v ← loadOp s n a; f v) = f x := by
  obtain ⟨hcheck, hload⟩ := h
  rw [hcheck, bind_ok, hload, bind_ok]

theorem read_then_of_raises {f : Word → Except Trap β} (h : Raises [opReadCheck s a, attempt (loadOp s n a)] t) :
    (do opReadCheck s a; let v ← loadOp s n a; f v) = .error t :=
  raises_bind_check h fun h => raises_bind h fun _ _ h => absurd h (raises_nil t)

/-- An operand that is written only: its check, then its destination. -/
theorem write_then {f : Dest → Except Trap β} (hw : opWriteCheck s a = .ok ()) (hd : destOf s n a = .ok dst) :
    (do opWriteCheck s a; let p ← destOf s n a; f p) = f dst := by
  rw [hw, bind_ok, hd, bind_ok]

theorem write_then_of_raises {f : Dest → Except Trap β} (h : Raises [opWriteCheck s a, attempt (destOf s n a)] t) :
    (do opWriteCheck s a; let p ← destOf s n a; f p) = .error t :=
  raises_bind_check h fun h => raises_bind h fun _ _ h => absurd h (raises_nil t)

/-- An operand that is read and written: its check, the load, then its destination. -/
theorem update_then {f : Word → Dest → Except Trap β} (hr : Reads s n a x) (hw : opWriteCheck s a = .ok ())
    (hd : destOf s n a = .ok dst) : (do opUpdateCheck s a; let v ← loadOp s n a; let p ← destOf s n a; f v p) = f x dst := by
  obtain ⟨hcheck, hload⟩ := hr
  rw [(opUpdateCheck_ok_iff s a ()).2 ⟨hcheck, hw⟩, bind_ok, hload, bind_ok, hd, bind_ok]

theorem update_then_of_raises {f : Word → Dest → Except Trap β}
    (h : Raises [opUpdateCheck s a, attempt (loadOp s n a), attempt (destOf s n a)] t) :
    (do opUpdateCheck s a; let v ← loadOp s n a; let p ← destOf s n a; f v p) = .error t :=
  raises_bind_check h fun h => raises_bind h fun _ _ h => raises_bind h fun _ _ h => absurd h (raises_nil t)

/-- The last part of a write: the check of the value, then the state after it (30 R209 step 9). -/
theorem put_of_ok {v : Word} {u : State} (h : destCheck s dst v = .ok ()) :
    (do destCheck s dst v; .ok u) = (.ok u : Except Trap State) := by
  rw [h, bind_ok]

theorem put_of_error {v : Word} {u : State} (h : destCheck s dst v = .error t) :
    (do destCheck s dst v; .ok u) = (.error t : Except Trap State) := by
  rw [h, bind_error]

end

/-! ### The gpr forms of the ALU instructions (43 R369 to R371) -/

section
variable {op : AluOp} {g : BitVec 4} {a : Operand} {s : State} {x y r : Word} {dst : Dest} {t : Trap}

theorem aluGprDst_of_reads (hy : Reads s (nextIp s [a]) a y) (hx : x.toNat = (getGpr s g).toNat % 2 ^ impliedBits a)
    (hr : op.ResultIs (impliedBits a) x y r) :
    aluGprDst op g a s = .ok { setGpr s g r with flags := aluFlags op s.flags (impliedBits a) x y r, ip := nextIp s [a] } := by
  obtain rfl := eq_trunc (impliedBits_le a) hx
  obtain rfl := (resultIs_iff (impliedBits_le a) op _ y r).1 hr
  exact read_then hy

theorem aluGprDst_of_raises (h : Raises [opReadCheck s a, attempt (loadOp s (nextIp s [a]) a)] t) : aluGprDst op g a s = .error t :=
  read_then_of_raises h

/-- With the operand read, what is left is the check of the result. -/
theorem aluGprSrc_of_reads (ha : isWritable a = true) (hx : Reads s (nextIp s [a]) a x) (hw : opWriteCheck s a = .ok ())
    (hd : destOf s (nextIp s [a]) a = .ok dst) (hy : y.toNat = (getGpr s g).toNat % 2 ^ bitsOf a) (hr : op.ResultIs (bitsOf a) x y r) :
    aluGprSrc op g a s = (do
      destCheck s dst r
      .ok { putDest s dst r with flags := aluFlags op s.flags (bitsOf a) x y r, ip := nextIp s [a] }) := by
  obtain rfl := eq_trunc (bitsOf_le a) hy
  obtain rfl := (resultIs_iff (bitsOf_le a) op x _ r).1 hr
  rw [aluGprSrc, ha, require_true, bind_ok]
  exact update_then hx hw hd

theorem aluGprSrc_of_raises (ha : isWritable a = true)
    (h : Raises [opUpdateCheck s a, attempt (loadOp s (nextIp s [a]) a), attempt (destOf s (nextIp s [a]) a)] t) :
    aluGprSrc op g a s = .error t := by
  rw [aluGprSrc, ha, require_true, bind_ok]
  exact update_then_of_raises h

end

/-- Settles O34: each instruction is `aluGprDst` or `aluGprSrc` of its operation. -/
theorem aluGprResult : Obligations.AluGprResult := by
  refine ⟨fun p hp g a s x y r hy hx hr => ?dst, fun k hk g a s t h => ?dstFault, fun p hp g a s ha => ?src⟩
  case dst =>
    have hexec : exec (p.1 g a) s = finish s (aluGprDst p.2 g a s) := by fin_cases hp <;> rfl
    exact exec_next_of_ok hexec (aluGprDst_of_reads hy hx hr)
  case dstFault =>
    have hexec : ∃ op, exec (k g a) s = finish s (aluGprDst op g a s) := by fin_cases hk <;> exact ⟨_, rfl⟩
    obtain ⟨op, hexec⟩ := hexec
    exact abandons_of_error hexec (aluGprDst_of_raises h)
  case src =>
    have hexec : exec (p.1 g a) s = finish s (aluGprSrc p.2 g a s) := by fin_cases hp <;> rfl
    refine ⟨fun x y r hx hy hr => ⟨fun dst ⟨hw, hd, hc⟩ => ?_, fun t ⟨hw, dst, hd, hc⟩ => ?_⟩,
      fun t h => abandons_of_error hexec (aluGprSrc_of_raises ha h)⟩
    · exact exec_next_of_ok hexec ((aluGprSrc_of_reads ha hx hw hd hy hr).trans (put_of_ok hc))
    · exact abandons_of_error hexec ((aluGprSrc_of_reads ha hx hw hd hy hr).trans (put_of_error hc))

/-! ### `mov`, `lea` and their gpr forms (41 R280 to R284) -/

section
variable {g : BitVec 4} {a b : Operand} {s : State} {v r : Word} {dst : Dest} {t : Trap}

/-- With the source read, what is left is the check of the value. -/
theorem movState_of_reads (hs : movShape a b = true) (hv : Reads s (nextIp s [a, b]) b v) (hw : opWriteCheck s a = .ok ())
    (hd : destOf s (nextIp s [a, b]) a = .ok dst) (hr : r.toNat = v.toNat % 2 ^ bitsOf a) :
    movState a b s = (do
      destCheck s dst r
      .ok { putDest s dst r with flags := setZN s.flags r (bitsOf a), ip := nextIp s [a, b] }) := by
  obtain rfl := eq_trunc (bitsOf_le a) hr
  obtain ⟨hcheck, hload⟩ := hv
  rw [movState, hs, require_true, bind_ok, hw, bind_ok, hcheck, bind_ok, hload, bind_ok, hd, bind_ok]

theorem movState_of_raises (hs : movShape a b = true)
    (h : Raises [opWriteCheck s a, opReadCheck s b, attempt (loadOp s (nextIp s [a, b]) b), attempt (destOf s (nextIp s [a, b]) a)] t) :
    movState a b s = .error t := by
  rw [movState, hs, require_true, bind_ok]
  exact raises_bind_check h fun h => raises_bind_check h fun h => raises_bind h fun _ _ h => raises_bind h fun _ _ h =>
    absurd h (raises_nil t)

theorem movrToGprState_of_reads (hv : Reads s (nextIp s [a]) a v) :
    movrToGprState g a s = .ok { setGpr s g v with flags := setZN s.flags v (impliedBits a), ip := nextIp s [a] } := by
  have hlt : v.toNat < 2 ^ impliedBits a :=
    (loadOp_lt hv.2).trans_le (Nat.pow_le_pow_right (by decide) (bitsOf_le_impliedBits a))
  have hv' := trunc_of_lt (impliedBits_le a) hlt
  refine (read_then hv).trans ?_
  rw [hv']

theorem movrToGprState_of_raises (h : Raises [opReadCheck s a, attempt (loadOp s (nextIp s [a]) a)] t) :
    movrToGprState g a s = .error t := read_then_of_raises h

theorem movrFromGprState_of_dest (ha : isWritable a = true) (hw : opWriteCheck s a = .ok ())
    (hd : destOf s (nextIp s [a]) a = .ok dst) (hr : r.toNat = (getGpr s g).toNat % 2 ^ bitsOf a) :
    movrFromGprState g a s = (do
      destCheck s dst r
      .ok { putDest s dst r with flags := setZN s.flags r (bitsOf a), ip := nextIp s [a] }) := by
  obtain rfl := eq_trunc (bitsOf_le a) hr
  rw [movrFromGprState, ha, require_true, bind_ok]
  exact write_then hw hd

theorem movrFromGprState_of_raises (ha : isWritable a = true)
    (h : Raises [opWriteCheck s a, attempt (destOf s (nextIp s [a]) a)] t) : movrFromGprState g a s = .error t := by
  rw [movrFromGprState, ha, require_true, bind_ok]
  exact write_then_of_raises h

theorem leaState_of_dest (hs : leaShape a b = true) (hw : opWriteCheck s a = .ok ()) (hd : destOf s (nextIp s [a, b]) a = .ok dst) :
    leaState a b s = (do
      destCheck s dst (addrOf s (nextIp s [a, b]) b)
      .ok { putDest s dst (addrOf s (nextIp s [a, b]) b) with ip := nextIp s [a, b] }) := by
  rw [leaState, hs, require_true, bind_ok]
  exact write_then hw hd

theorem leaState_of_raises (hs : leaShape a b = true)
    (h : Raises [opWriteCheck s a, attempt (destOf s (nextIp s [a, b]) a)] t) : leaState a b s = .error t := by
  rw [leaState, hs, require_true, bind_ok]
  exact write_then_of_raises h

theorem isReg_of_isMem {a : Operand} (h : isMem a = true) : isReg a = false := by
  cases a with
  | reg => cases h
  | ind | short | long | mref => rfl

/-- `lea` writes a register, since its source is memory (41 R281). -/
theorem leaShape_dest {next : Word} (hs : leaShape a b = true) (hd : destOf s next a = .ok dst) : ∃ n, dst = .reg n (bitsOf a) := by
  simp only [leaShape, movShape, Bool.and_eq_true, Bool.or_eq_true] at hs
  obtain ⟨⟨-, hreg⟩, hmem⟩ := hs
  rw [isReg_of_isMem hmem, Bool.false_eq_true, or_false] at hreg
  obtain ⟨sz, q, rfl, rfl⟩ | ⟨hamem, -⟩ := destOf_ok hd
  · exact ⟨q.toNat, rfl⟩
  · rw [isReg_of_isMem hamem] at hreg
    cases hreg

end

/-- Settles O37: what each of the five operations answers once its operands are read and checked, and what it raises. -/
theorem moveAndAddressResult : Obligations.MoveAndAddressResult := by
  refine ⟨fun s a b g v r dst => ⟨fun hs hv hr ⟨hw, hd, hc⟩ => ?mov, fun hv => ?toGpr, fun ha hr ⟨hw, hd, hc⟩ => ?fromGpr⟩,
    fun s a b g dst => ⟨fun hs t h => ?movFault, fun t h => ?toGprFault, fun ha t h => ?fromGprFault, fun hs t h => ?leaFault,
      fun hs ⟨hw, hd, hc⟩ => ⟨?lea, leaShape_dest hs hd⟩, fun ha => ?lear⟩⟩
  case mov =>
    have hexec : exec (.mov a b) s = finish s (movState a b s) := rfl
    exact ⟨_, exec_next_of_ok hexec ((movState_of_reads hs hv hw hd hr).trans (put_of_ok hc)), setZN_znOf .., setZN_keeps ..⟩
  case toGpr =>
    have hexec : exec (.movrToGpr g a) s = finish s (movrToGprState g a s) := rfl
    exact ⟨_, exec_next_of_ok hexec (movrToGprState_of_reads hv), setZN_znOf .., setZN_keeps ..⟩
  case fromGpr =>
    have hexec : exec (.movrFromGpr g a) s = finish s (movrFromGprState g a s) := rfl
    exact ⟨_, exec_next_of_ok hexec ((movrFromGprState_of_dest ha hw hd hr).trans (put_of_ok hc)), setZN_znOf .., setZN_keeps ..⟩
  case movFault =>
    have hexec : exec (.mov a b) s = finish s (movState a b s) := rfl
    obtain h | ⟨v, r, hv, hr, hw, dst, hd, hc⟩ := h
    · exact abandons_of_error hexec (movState_of_raises hs h)
    · exact abandons_of_error hexec ((movState_of_reads hs hv hw hd hr).trans (put_of_error hc))
  case toGprFault =>
    have hexec : exec (.movrToGpr g a) s = finish s (movrToGprState g a s) := rfl
    exact abandons_of_error hexec (movrToGprState_of_raises h)
  case fromGprFault =>
    have hexec : exec (.movrFromGpr g a) s = finish s (movrFromGprState g a s) := rfl
    obtain h | ⟨r, hr, hw, dst, hd, hc⟩ := h
    · exact abandons_of_error hexec (movrFromGprState_of_raises ha h)
    · exact abandons_of_error hexec ((movrFromGprState_of_dest ha hw hd hr).trans (put_of_error hc))
  case leaFault =>
    have hexec : exec (.lea a b) s = finish s (leaState a b s) := rfl
    obtain h | ⟨hw, dst, hd, hc⟩ := h
    · exact abandons_of_error hexec (leaState_of_raises hs h)
    · exact abandons_of_error hexec ((leaState_of_dest hs hw hd).trans (put_of_error hc))
  case lea =>
    have hexec : exec (.lea a b) s = finish s (leaState a b s) := rfl
    exact exec_next_of_ok hexec ((leaState_of_dest hs hw hd).trans (put_of_ok hc))
  case lear =>
    have hexec : exec (.lear g a) s = finish s (learState g a s) := rfl
    exact exec_next_of_ok hexec (by rw [learState, ha, require_true, bind_ok])

/-! ### `bnot`, `neg` and their gpr forms (43 R362 to R366) -/

/-- `r` is the `d`-bit result of a unary operation on `x`, said with numbers (43 R363, R364). -/
def UnaryOp.ResultIs (op : UnaryOp) (d : Nat) (x r : Word) : Prop :=
  match op with
  | .bnot => r.toNat = 2 ^ d - 1 - x.toNat
  | .neg => r.toNat = (2 ^ d - x.toNat) % 2 ^ d

theorem UnaryOp.apply_neg (x : Word) : UnaryOp.neg.apply x = -x := BitVec.zero_sub x

/-- The result of a unary operation on a `d`-bit value is the low bits of the 64-bit operation. -/
theorem unaryResultIs_iff {d : Nat} (hd : d ≤ 64) (op : UnaryOp) {x : Word} (hx : x.toNat < 2 ^ d) (r : Word) :
    op.ResultIs d x r ↔ r = trunc d (op.apply x) := by
  have hwidth (v : Word) : (trunc d v).toNat = (v.setWidth d).toNat := by rw [trunc_toNat hd, BitVec.toNat_setWidth]
  have hlow : (x.setWidth d).toNat = x.toNat := by rw [BitVec.toNat_setWidth, Nat.mod_eq_of_lt hx]
  rw [BitVec.toNat_eq, hwidth]
  cases op with
  | bnot => rw [UnaryOp.ResultIs, UnaryOp.apply, BitVec.setWidth_not hd, BitVec.toNat_not, hlow]
  | neg => rw [UnaryOp.ResultIs, UnaryOp.apply_neg, BitVec.setWidth_neg_of_le hd, BitVec.toNat_neg, hlow]

section
variable {op : UnaryOp} {l f : Bool} {a : Operand} {s : State} {x r : Word} {dst : Dest} {t : Trap}

theorem unaryState_of_reads (hs : unaryShape l a = true) (hx : Reads s (nextIp s [a]) a x) (hw : opWriteCheck s a = .ok ())
    (hd : destOf s (nextIp s [a]) a = .ok dst) (hr : op.ResultIs (bitsOf a) x r) :
    unaryState op l f a s = (do
      destCheck s dst r
      .ok { putDest s dst r with flags := if f then s.flags else setZNP s.flags r (bitsOf a), ip := nextIp s [a] }) := by
  obtain rfl := (unaryResultIs_iff (bitsOf_le a) op (loadOp_lt hx.2) r).1 hr
  rw [unaryState, hs, require_true, bind_ok]
  exact update_then hx hw hd

theorem unaryState_of_raises (hs : unaryShape l a = true)
    (h : Raises [opUpdateCheck s a, attempt (loadOp s (nextIp s [a]) a), attempt (destOf s (nextIp s [a]) a)] t) :
    unaryState op l f a s = .error t := by
  rw [unaryState, hs, require_true, bind_ok]
  exact update_then_of_raises h

/-- An instruction that is a unary operation, with its operand accepted: the result, and Z, N, P unless `f`. -/
theorem exec_unary_next {i : Instr} (hexec : exec i s = finish s (unaryState op l f a s)) (hs : unaryShape l a = true)
    (hx : Reads s (nextIp s [a]) a x) (hacc : Accepts s (nextIp s [a]) a dst r) (hr : op.ResultIs (bitsOf a) x r) :
    ∃ fl, exec i s = .next { putDest s dst r with flags := fl, ip := nextIp s [a] } ∧ (f = true → fl = s.flags) ∧
      (f = false → fl = setZNP s.flags r (bitsOf a)) := by
  obtain ⟨hw, hd, hc⟩ := hacc
  refine ⟨_, exec_next_of_ok hexec ((unaryState_of_reads hs hx hw hd hr).trans (put_of_ok hc)), ?_, ?_⟩
  · rintro rfl; rfl
  · rintro rfl; rfl

/-- And with the value refused. -/
theorem exec_unary_abandons {i : Instr} (hexec : exec i s = finish s (unaryState op l f a s)) (hs : unaryShape l a = true)
    (hx : Reads s (nextIp s [a]) a x) (hrej : Rejects s (nextIp s [a]) a r t) (hr : op.ResultIs (bitsOf a) x r) : Abandons i s t := by
  obtain ⟨hw, dst, hd, hc⟩ := hrej
  exact abandons_of_error hexec ((unaryState_of_reads hs hx hw hd hr).trans (put_of_error hc))

end

/-- Settles O47: both instructions are `unaryState`, and both gpr forms `unaryGpr`. -/
theorem unaryResult : Obligations.UnaryResult := by
  intro s l f a x r dst g
  have hbnot : exec (.bnot l f a) s = finish s (unaryState .bnot l f a s) := rfl
  have hneg : exec (.neg l f a) s = finish s (unaryState .neg l f a s) := rfl
  refine ⟨fun hs => ⟨fun t h => ⟨?_, ?_⟩,
      fun t hx hrej => ⟨exec_unary_abandons hbnot hs hx hrej, exec_unary_abandons hneg hs hx hrej⟩⟩,
    fun hs hx hacc => ⟨exec_unary_next hbnot hs hx hacc, exec_unary_next hneg hs hx hacc⟩, rfl, ?negr⟩
  · exact abandons_of_error hbnot (unaryState_of_raises hs h)
  · exact abandons_of_error hneg (unaryState_of_raises hs h)
  case negr =>
    show Host.Outcome.next (unaryGpr .neg g s) = _
    rw [unaryGpr, UnaryOp.apply_neg]
    rfl

/-! ### `cmp`, `test` and their gpr forms (43 R379 to R383) -/

/-- The flags of a comparison are those of the subtraction (43 R380). -/
theorem compareFlags_eq {d : Nat} (hd : d ≤ 64) (f : Word) {x y r : Word} (hr : AluOp.sub.ResultIs d x y r) :
    compareFlags f d x y = aluFlags .sub f d x y r := by
  rw [(resultIs_iff hd .sub x y r).1 hr]
  rfl

section
variable {β : Type} {s : State} {n : Word} {a b : Operand} {x y : Word} {t : Trap} {f : Word → Word → Except Trap β}

/-- Two operands that are read: both checks, then both loads (30 R209). -/
theorem read_two_then (hx : Reads s n a x) (hy : Reads s n b y) :
    (do opReadCheck s a; opReadCheck s b; let v ← loadOp s n a; let w ← loadOp s n b; f v w) = f x y := by
  obtain ⟨hxcheck, hxload⟩ := hx
  obtain ⟨hycheck, hyload⟩ := hy
  rw [hxcheck, bind_ok, hycheck, bind_ok, hxload, bind_ok, hyload, bind_ok]

theorem read_two_then_of_raises
    (h : Raises [opReadCheck s a, opReadCheck s b, attempt (loadOp s n a), attempt (loadOp s n b)] t) :
    (do opReadCheck s a; opReadCheck s b; let v ← loadOp s n a; let w ← loadOp s n b; f v w) = .error t :=
  raises_bind_check h fun h => raises_bind_check h fun h => raises_bind h fun _ _ h => raises_bind h fun _ _ h =>
    absurd h (raises_nil t)

end

section
variable {s : State} {g : BitVec 4} {a b : Operand} {x y r : Word} {t : Trap}

theorem cmpState_of_reads (hs : cmpShape a b = true) (hx : Reads s (nextIp s [a, b]) a x) (hy : Reads s (nextIp s [a, b]) b y)
    (hr : AluOp.sub.ResultIs (max (bitsOf a) (bitsOf b)) x y r) :
    cmpState a b s = .ok { s with flags := aluFlags .sub s.flags (max (bitsOf a) (bitsOf b)) x y r, ip := nextIp s [a, b] } := by
  rw [cmpState, hs, require_true, bind_ok, ← compareFlags_eq (max_le (bitsOf_le a) (bitsOf_le b)) s.flags hr]
  exact read_two_then hx hy

theorem testState_of_reads (hs : cmpShape a b = true) (hx : Reads s (nextIp s [a, b]) a x) (hy : Reads s (nextIp s [a, b]) b y) :
    testState a b s = .ok { s with flags := setZN s.flags (x &&& y) (max (bitsOf a) (bitsOf b)), ip := nextIp s [a, b] } := by
  rw [testState, hs, require_true, bind_ok]
  exact read_two_then hx hy

/-- `cmp` and `test` raise the same (43 R379). -/
theorem cmpState_testState_of_raises (hs : cmpShape a b = true)
    (h : Raises [opReadCheck s a, opReadCheck s b, attempt (loadOp s (nextIp s [a, b]) a), attempt (loadOp s (nextIp s [a, b]) b)] t) :
    cmpState a b s = .error t ∧ testState a b s = .error t := by
  rw [cmpState, testState, hs, require_true, bind_ok, bind_ok]
  exact ⟨read_two_then_of_raises h, read_two_then_of_raises h⟩

theorem cmprState_of_reads (hy : Reads s (nextIp s [a]) a y) (hx : x.toNat = (getGpr s g).toNat % 2 ^ impliedBits a)
    (hr : AluOp.sub.ResultIs (impliedBits a) x y r) :
    cmprState g a s = .ok { s with flags := aluFlags .sub s.flags (impliedBits a) x y r, ip := nextIp s [a] } := by
  rw [← compareFlags_eq (impliedBits_le a) s.flags hr, eq_trunc (impliedBits_le a) hx]
  exact read_then hy

theorem testrState_of_reads (hy : Reads s (nextIp s [a]) a y) (hx : x.toNat = (getGpr s g).toNat % 2 ^ impliedBits a) :
    testrState g a s = .ok { s with flags := setZN s.flags (x &&& y) (impliedBits a), ip := nextIp s [a] } := by
  rw [eq_trunc (impliedBits_le a) hx]
  exact read_then hy

end

/-- Settles O48: the flags of a subtraction, or Z and N of the bitwise and, of the operands as read. -/
theorem compareResult : Obligations.CompareResult := by
  intro s a b g x y r
  have hcmp : exec (.cmp a b) s = finish s (cmpState a b s) := rfl
  have htest : exec (.test a b) s = finish s (testState a b s) := rfl
  have hcmpr : exec (.cmpr g a) s = finish s (cmprState g a s) := rfl
  have htestr : exec (.testr g a) s = finish s (testrState g a s) := rfl
  refine ⟨fun hs t h => ?faults, fun t h => ⟨?cmprFault, ?testrFault⟩, fun hs hx hy => ⟨fun hr => ?cmp, ?test⟩,
    fun hy hx => ⟨fun hr => ?cmpr, ?testr⟩⟩
  case faults =>
    obtain ⟨herror, herror'⟩ := cmpState_testState_of_raises hs h
    exact ⟨abandons_of_error hcmp herror, abandons_of_error htest herror'⟩
  case cmprFault => exact abandons_of_error hcmpr (read_then_of_raises h)
  case testrFault => exact abandons_of_error htestr (read_then_of_raises h)
  case cmp => exact exec_next_of_ok hcmp (cmpState_of_reads hs hx hy hr)
  case test => exact ⟨_, exec_next_of_ok htest (testState_of_reads hs hx hy), setZN_znOf .., setZN_keeps ..⟩
  case cmpr => exact exec_next_of_ok hcmpr (cmprState_of_reads hy hx hr)
  case testr => exact ⟨_, exec_next_of_ok htestr (testrState_of_reads hy hx), setZN_znOf .., setZN_keeps ..⟩

end Sys2Proof.Machine
end

section
/-!
The shifts: the bits of their closed forms and of their one-bit steps, which are the same, and what the instructions answer and raise; O46.
-/

namespace Sys2Proof.Machine

/-! ### Bits of the parts of a shift (00 R12) -/

/-- `v` is the `d`-bit value with the bits `f`. -/
def HasBits (v : Word) (d : Nat) (f : Nat → Bool) : Prop := ∀ j, v.getLsbD j = (decide (j < d) && f j)

theorem HasBits.ext {v w : Word} {d : Nat} {f : Nat → Bool} (hv : HasBits v d f) (hw : HasBits w d f) : v = w :=
  BitVec.eq_of_getLsbD_eq fun i _ => (hv i).trans (hw i).symm

theorem HasBits.bit {v : Word} {d : Nat} {f : Nat → Bool} (hv : HasBits v d f) {j : Nat} (hj : j < d) : v.getLsbD j = f j := by
  rw [hv j, decide_eq_true hj, Bool.true_and]

/-- A `d`-bit value has its own bits. -/
theorem hasBits_of_lt {v : Word} {d : Nat} (h : v.toNat < 2 ^ d) : HasBits v d fun j => v.getLsbD j := by
  intro j
  rcases Nat.lt_or_ge j d with hj | hj
  · rw [decide_eq_true hj, Bool.true_and]
  · rw [decide_eq_false (Nat.not_lt.2 hj), Bool.false_and]
    exact testBit_eq_false_of_lt_of_le h hj

theorem trunc_bit {d : Nat} (hd : d ≤ 64) (v : Word) (j : Nat) : (trunc d v).getLsbD j = (decide (j < d) && v.getLsbD j) := by
  rw [trunc, BitVec.getLsbD_setWidth, BitVec.getLsbD_setWidth]
  rcases Nat.lt_or_ge j d with hj | hj
  · rw [decide_eq_true (hj.trans_le hd), Bool.true_and]
  · rw [decide_eq_false (Nat.not_lt.2 hj), Bool.false_and, Bool.and_false]

/-- A sign extension repeats the top bit. -/
theorem sext_bit {d : Nat} (hpos : 0 < d) (v : Word) (j : Nat) :
    (sext d v).getLsbD j = (decide (j < 64) && v.getLsbD (min j (d - 1))) := by
  have hlast : d - 1 < d := by omega
  rw [sext, BitVec.getLsbD_signExtend, BitVec.msb_eq_getLsbD_last, BitVec.getLsbD_setWidth, BitVec.getLsbD_setWidth]
  congr 1
  split
  · next hj => rw [decide_eq_true hj, Bool.true_and, Nat.min_eq_left (by omega)]
  · next hj => rw [decide_eq_true hlast, Bool.true_and, Nat.min_eq_right (by omega)]

theorem fill_bit (k : Nat) (b : Bool) (j : Nat) : (fill k b).getLsbD j = (decide (j < 64) && (decide (j < k) && b)) := by
  cases b with
  | false => simp [fill]
  | true => simp [fill, BitVec.getLsbD_ofNat, Nat.testBit_two_pow_sub_one]

/-! ### The bits after some steps (43 R352 to R358) -/

/-- Bit `j` of the `d`-bit value `a` after `c` one-bit steps; `c0` is the carry before the instruction. -/
def ShiftOp.bitAfter (op : ShiftOp) (d : Nat) (c0 : Bool) (a : Word) (c j : Nat) : Bool :=
  match op with
  | .lsh => decide (c ≤ j) && a.getLsbD (j - c)
  | .rsh => decide (j + c < d) && a.getLsbD (j + c)
  | .arsh => a.getLsbD (min (j + c) (d - 1))
  | .lshc => if c ≤ j then a.getLsbD (j - c) else c0
  | .rshc => if j + c < d then a.getLsbD (j + c) else c0
  | .lrot => if c % d ≤ j then a.getLsbD (j - c % d) else a.getLsbD (j + (d - c % d))
  | .rrot => if j + c % d < d then a.getLsbD (j + c % d) else a.getLsbD (j + c % d - d)

/-- The bit that one step moves out: the top one to the left, the lowest to the right. -/
def ShiftOp.exitBit (op : ShiftOp) (d : Nat) : Nat :=
  match op with
  | .lsh | .lshc | .lrot => d - 1
  | .rsh | .arsh | .rshc | .rrot => 0

theorem oneBit_out (op : ShiftOp) (d : Nat) (c0 : Bool) (a : Word) : (op.oneBit d c0 a).out = a.getLsbD (op.exitBit d) := by
  cases op <;> rfl

theorem exitBit_lt (op : ShiftOp) {d : Nat} (hpos : 0 < d) : op.exitBit d < d := by
  cases op with
  | lsh | lshc | lrot => exact Nat.sub_lt hpos Nat.one_pos
  | rsh | arsh | rshc | rrot => exact hpos

/-- Counting modulo `d`. -/
theorem succ_mod_eq {d : Nat} (hpos : 0 < d) (c : Nat) : (c + 1) % d = if c % d + 1 = d then 0 else c % d + 1 := by
  have hlt := Nat.mod_lt c hpos
  rw [Nat.add_mod_eq_add_mod_right 1 (Nat.mod_mod c d).symm]
  split
  · next h => rw [h, Nat.mod_self]
  · next h => exact Nat.mod_eq_of_lt (by omega)

section
variable {d : Nat} (hpos : 0 < d) (hd : d ≤ 64) (c0 : Bool) {a : Word}
include hpos hd

/-- One more step moves every bit by one. -/
theorem oneBit_bits (op : ShiftOp) {v : Word} {c : Nat} (hv : HasBits v d (op.bitAfter d c0 a c)) :
    HasBits (op.oneBit d c0 v).value d (op.bitAfter d c0 a (c + 1)) := by
  intro j
  have hmod := succ_mod_eq hpos c
  have hlt := Nat.mod_lt c hpos
  cases op with
  | lsh =>
    simp only [ShiftOp.oneBit, trunc_bit hd, BitVec.getLsbD_shiftLeft, hv _, ShiftOp.bitAfter]
    grind
  | rsh =>
    simp only [ShiftOp.oneBit, BitVec.getLsbD_ushiftRight, hv _, ShiftOp.bitAfter]
    grind
  | arsh =>
    rw [ShiftOp.oneBit, setBit_getLsbD _ (by omega), BitVec.getLsbD_ushiftRight, hv, hv]
    simp only [ShiftOp.bitAfter]
    grind
  | lshc =>
    rw [ShiftOp.oneBit, setBit_getLsbD _ (by omega), trunc_bit hd, BitVec.getLsbD_shiftLeft, hv]
    simp only [ShiftOp.bitAfter]
    grind
  | rshc =>
    rw [ShiftOp.oneBit, setBit_getLsbD _ (by omega), BitVec.getLsbD_ushiftRight, hv]
    simp only [ShiftOp.bitAfter]
    grind
  | lrot =>
    rw [ShiftOp.oneBit, setBit_getLsbD _ (by omega), trunc_bit hd, BitVec.getLsbD_shiftLeft, hv, hv]
    simp only [ShiftOp.bitAfter, hmod]
    generalize c % d = k at *
    grind
  | rrot =>
    rw [ShiftOp.oneBit, setBit_getLsbD _ (by omega), BitVec.getLsbD_ushiftRight, hv, hv]
    simp only [ShiftOp.bitAfter, hmod]
    generalize c % d = k at *
    grind

omit hd in
theorem bitAfter_zero (op : ShiftOp) {j : Nat} (hj : j < d) : op.bitAfter d c0 a 0 j = a.getLsbD j := by
  cases op with
  | lsh | lshc => simp [ShiftOp.bitAfter]
  | rsh | rshc => simp [ShiftOp.bitAfter, hj]
  | arsh => rw [ShiftOp.bitAfter, Nat.add_zero, Nat.min_eq_left (by omega)]
  | lrot => simp [ShiftOp.bitAfter, Nat.zero_mod]
  | rrot => simp [ShiftOp.bitAfter, Nat.zero_mod, hj]

variable (ha : a.toNat < 2 ^ d)
include ha

theorem iterate_bits (op : ShiftOp) (c : Nat) : HasBits (op.iterate d c0 c a).value d (op.bitAfter d c0 a c) := by
  induction c with
  | zero =>
    intro j
    rw [ShiftOp.iterate, hasBits_of_lt ha]
    rcases Nat.lt_or_ge j d with hj | hj
    · rw [bitAfter_zero hpos c0 op hj]
    · simp [Nat.not_lt.2 hj]
  | succ c ih => exact oneBit_bits hpos hd c0 op ih

theorem closedForm_bits (op : ShiftOp) (c : Nat) : HasBits (op.closedForm d a (c + 1) c0).value d (op.bitAfter d c0 a (c + 1)) := by
  intro j
  have hhigh (i : Nat) (hi : d ≤ i) : a.getLsbD i = false := testBit_eq_false_of_lt_of_le ha hi
  have hlt := Nat.mod_lt (c + 1) hpos
  cases op with
  | lsh =>
    simp only [ShiftOp.closedForm, ShiftOp.bitAfter]
    split
    · rw [trunc_bit hd, BitVec.getLsbD_shiftLeft]
      grind
    · show (0#64).getLsbD j = _
      rw [BitVec.getLsbD_zero]
      grind
  | rsh =>
    simp only [ShiftOp.closedForm, ShiftOp.bitAfter]
    split
    · rw [BitVec.getLsbD_ushiftRight]
      grind
    · show (0#64).getLsbD j = _
      rw [BitVec.getLsbD_zero]
      grind
  | arsh =>
    simp only [ShiftOp.closedForm, ShiftOp.bitAfter]
    split
    · rw [trunc_bit hd, BitVec.getLsbD_sshiftRight, BitVec.msb_eq_getLsbD_last, sext_bit hpos, sext_bit hpos]
      grind
    · rw [fill_bit, msb]
      grind
  | lshc =>
    simp only [ShiftOp.closedForm, ShiftOp.bitAfter]
    split
    · rw [BitVec.getLsbD_or, trunc_bit hd, BitVec.getLsbD_shiftLeft, fill_bit]
      grind
    · rw [fill_bit]
      grind
  | rshc =>
    simp only [ShiftOp.closedForm, ShiftOp.bitAfter]
    split
    · rw [BitVec.getLsbD_or, BitVec.getLsbD_ushiftRight, BitVec.getLsbD_shiftLeft, fill_bit]
      grind
    · rw [fill_bit]
      grind
  | lrot =>
    simp only [ShiftOp.closedForm, ShiftOp.bitAfter, BitVec.getLsbD_or, trunc_bit hd, BitVec.getLsbD_shiftLeft,
      BitVec.getLsbD_ushiftRight]
    generalize (c + 1) % d = k at *
    grind
  | rrot =>
    simp only [ShiftOp.closedForm, ShiftOp.bitAfter, BitVec.getLsbD_or, trunc_bit hd, BitVec.getLsbD_shiftLeft,
      BitVec.getLsbD_ushiftRight]
    generalize (c + 1) % d = k at *
    grind

/-- The last bit that the closed form moves out is the one that the last step moves out. -/
theorem closedForm_out (op : ShiftOp) (c : Nat) : (op.closedForm d a (c + 1) c0).out = op.bitAfter d c0 a c (op.exitBit d) := by
  have hlt := Nat.mod_lt c hpos
  cases op with
  | lsh | lshc | rsh | rshc | arsh =>
    simp only [ShiftOp.closedForm, ShiftOp.bitAfter, ShiftOp.exitBit, msb]
    grind
  | lrot =>
    have hlow : (ShiftOp.lrot.closedForm d a (c + 1) c0).out = ShiftOp.lrot.bitAfter d c0 a (c + 1) 0 :=
      (closedForm_bits hpos hd c0 ha .lrot c).bit hpos
    rw [hlow]
    simp only [ShiftOp.bitAfter, ShiftOp.exitBit, succ_mod_eq hpos c]
    generalize c % d = k at *
    grind
  | rrot =>
    have htop : (ShiftOp.rrot.closedForm d a (c + 1) c0).out = ShiftOp.rrot.bitAfter d c0 a (c + 1) (d - 1) :=
      (closedForm_bits hpos hd c0 ha .rrot c).bit (Nat.sub_lt hpos Nat.one_pos)
    rw [htop]
    simp only [ShiftOp.bitAfter, ShiftOp.exitBit, succ_mod_eq hpos c]
    generalize c % d = k at *
    grind

/-- The closed forms are the one-bit steps, iterated (43 R351 to R358). -/
theorem apply_eq_iterate (op : ShiftOp) (c : Nat) : op.apply d a c c0 = op.iterate d c0 c a := by
  cases c with
  | zero => rfl
  | succ c =>
    have hvalue := (closedForm_bits hpos hd c0 ha op c).ext (iterate_bits hpos hd c0 ha op (c + 1))
    have hout : (op.closedForm d a (c + 1) c0).out = (op.iterate d c0 (c + 1) a).out := by
      rw [closedForm_out hpos hd c0 ha, ShiftOp.iterate, oneBit_out, (iterate_bits hpos hd c0 ha op c).bit (exitBit_lt op hpos)]
    rw [ShiftOp.apply, if_neg (Nat.succ_ne_zero c)]
    exact congrArg₂ Shifted.mk hvalue hout

end

/-! ### The instructions (43 R350, R351, R359) -/

theorem shiftFlags_of (s : State) (d : Nat) (r : Shifted) :
    flagC (shiftFlags s d r) = r.out ∧ ZNOf (shiftFlags s d r) r.value d ∧ KeepsFlags 0x0f s.flags (shiftFlags s d r) := by
  refine ⟨?_, setZN_znOf .., ?_⟩
  · rw [shiftFlags, flagC_setZN, flagC_setCV]
  · exact ((setCV_keeps s.flags _ _).mono (by decide)).trans ((setZN_keeps _ r.value d).mono (by decide))

section
variable {op : ShiftOp} {l f : Bool} {g : BitVec 4} {a b : Operand} {s : State} {x c : Word} {dst : Dest} {t : Trap}

/-- What an operand of one of the four sizes reads as is shifted step by step. -/
theorem apply_eq_iterate_of_size {d : Nat} (hsize : ∃ sz : Size, d = sizeBits sz) {v : Word} (hv : v.toNat < 2 ^ d) (k : Nat)
    (c0 : Bool) : op.apply d v k c0 = op.iterate d c0 k v := by
  obtain ⟨sz, rfl⟩ := hsize
  exact apply_eq_iterate (by cases sz <;> decide) (sizeBits_le sz) c0 hv op k

/-- With the operands read, what is left is the check of the result. -/
theorem shiftTwo_of_reads (hs : aluShape l a b = true) (hx : Reads s (nextIp s [a, b]) a x) (hc : Reads s (nextIp s [a, b]) b c)
    (hw : opWriteCheck s a = .ok ()) (hd : destOf s (nextIp s [a, b]) a = .ok dst) :
    let r := op.iterate (bitsOf a) (flagC s.flags) c.toNat x
    shiftTwo op l f a b s = (do
      destCheck s dst r.value
      .ok { putDest s dst r.value with flags := if f then s.flags else shiftFlags s (bitsOf a) r, ip := nextIp s [a, b] }) := by
  have hwritable : isWritable a = true := by
    simp only [aluShape, Bool.and_eq_true] at hs
    exact hs.1.1
  obtain ⟨hxcheck, hxload⟩ := hx
  obtain ⟨hccheck, hcload⟩ := hc
  have happly := apply_eq_iterate_of_size (op := op) (bitsOf_writable hwritable) (loadOp_lt hxload) c.toNat (flagC s.flags)
  rw [shiftTwo, hs, require_true, bind_ok, (opUpdateCheck_ok_iff s a ()).2 ⟨hxcheck, hw⟩, bind_ok, hccheck, bind_ok, hxload, bind_ok,
    hcload, bind_ok, hd, bind_ok, happly]

theorem shiftTwo_of_raises (hs : aluShape l a b = true)
    (h : Raises [opUpdateCheck s a, opReadCheck s b, attempt (loadOp s (nextIp s [a, b]) a), attempt (loadOp s (nextIp s [a, b]) b),
      attempt (destOf s (nextIp s [a, b]) a)] t) : shiftTwo op l f a b s = .error t := by
  rw [shiftTwo, hs, require_true, bind_ok]
  exact raises_bind_check h fun h => raises_bind_check h fun h => raises_bind h fun _ _ h => raises_bind h fun _ _ h =>
    raises_bind h fun _ _ h => absurd h (raises_nil t)

theorem shiftGpr_of_reads (hc : Reads s (nextIp s [a]) a c) (hx : x.toNat = (getGpr s g).toNat % 2 ^ impliedBits a) :
    let r := op.iterate (impliedBits a) (flagC s.flags) c.toNat x
    shiftGpr op g a s = .ok { setGpr s g r.value with flags := shiftFlags s (impliedBits a) r, ip := nextIp s [a] } := by
  have hlt : x.toNat < 2 ^ impliedBits a := hx ▸ Nat.mod_lt _ (Nat.two_pow_pos _)
  have happly := apply_eq_iterate_of_size (op := op) (impliedBits_size a) hlt c.toNat (flagC s.flags)
  obtain rfl := eq_trunc (impliedBits_le a) hx
  refine (read_then hc).trans ?_
  rw [happly]

end

/-- Settles O46: the closed forms are the iterated steps, and each instruction is `shiftTwo` or `shiftGpr` of its operation. -/
theorem shiftResult : Obligations.ShiftResult := by
  refine ⟨fun p hp l f a b s hs => ?two, fun k hk g a s t h => ?gprFault, fun p hp g a s x c hc hx => ?gpr⟩
  case two =>
    have hexec : exec (p.1 l f a b) s = finish s (shiftTwo p.2 l f a b s) := by fin_cases hp <;> rfl
    refine ⟨fun x c hx hc => ⟨fun dst ⟨hw, hd, hv⟩ => ?_, fun t ⟨hw, dst, hd, hv⟩ => ?_⟩,
      fun t h => abandons_of_error hexec (shiftTwo_of_raises hs h)⟩
    · refine ⟨_, exec_next_of_ok hexec ((shiftTwo_of_reads hs hx hc hw hd).trans (put_of_ok hv)), ?_, ?_⟩
      · rintro rfl; rfl
      · rintro rfl; exact shiftFlags_of ..
    · exact abandons_of_error hexec ((shiftTwo_of_reads hs hx hc hw hd).trans (put_of_error hv))
  case gprFault =>
    have hexec : ∃ op, exec (k g a) s = finish s (shiftGpr op g a s) := by fin_cases hk <;> exact ⟨_, rfl⟩
    obtain ⟨op, hexec⟩ := hexec
    exact abandons_of_error hexec (read_then_of_raises h)
  case gpr =>
    have hexec : exec (p.1 g a) s = finish s (shiftGpr p.2 g a s) := by fin_cases hp <;> rfl
    exact ⟨_, exec_next_of_ok hexec (shiftGpr_of_reads hc hx), shiftFlags_of ..⟩

end Sys2Proof.Machine
end

section
/-!
What is refused before an instruction does anything: its mode and its operands' shapes; and machine-specific opcodes; O19, O32.
-/

namespace Sys2Proof.Machine

/-! ### A check that fails first (30 R209, 60 R525) -/

section
variable {i : Instr} {s : State} {r : Except Trap State} {e : Exc}

/-- An instruction whose operation raises an exception takes it. -/
theorem exec_takes_of_error (hr : r = .error (.exc e)) (hexec : exec i s = finish s r) : exec i s = .next (takeException s e) := by
  rw [hexec, hr, finish_exc]

/-- An instruction that begins with a check takes that check's exception where it fails. -/
theorem exec_takes_of_require {b : Bool} {f : Unit → Except Trap State} (hb : b = false)
    (hexec : exec i s = finish s (require b (.exc e) >>= f)) : exec i s = .next (takeException s e) :=
  exec_takes_of_error (by rw [hb, require_false, bind_error]) hexec

/-- So does one that checks the mode first, in supervisor mode. -/
theorem exec_takes_of_supervisorOnly {b : Bool} {f : Unit → Except Trap State} (hb : b = false) (hx : s.xm = false)
    (hexec : exec i s = finish s (supervisorOnly s >>= fun _ => require b (.exc e) >>= f)) : exec i s = .next (takeException s e) :=
  exec_takes_of_error (by rw [supervisorOnly_of_supervisor hx, bind_ok, hb, require_false, bind_error]) hexec

end

/-! ### Supervisor instructions in program mode (46 R470) -/

section
variable {s : State} (hx : s.xm = true)
include hx

theorem not_supervisor : (!s.xm) = false := by rw [hx]; rfl

theorem supervisorOnly_of_program : supervisorOnly s = .error (.exc .prot) := by
  rw [supervisorOnly, not_supervisor hx, require_false]

/-- A supervisor instruction checks the mode, then does the rest. -/
theorem exec_prot_of_supervisorOnly {i : Instr} {f : Unit → Except Trap State} (hexec : exec i s = finish s (supervisorOnly s >>= f)) :
    exec i s = .next (takeException s .prot) :=
  exec_takes_of_require (not_supervisor hx) hexec

theorem inOnce_of_program (ss : Size) : inOnce ss s = .error (.exc .prot) := by
  rw [inOnce, not_supervisor hx, require_false, bind_error]

theorem outOnce_of_program (ss : Size) : outOnce ss s = .error (.exc .prot) := by
  rw [outOnce, not_supervisor hx, require_false, bind_error]

end

/-- A prefix raises what the check of its follower raises, before anything else (42 R331). -/
theorem exec_prefix_takes {s : State} {fo : Follower} {e : Exc} (h : followerCheck s fo = .error (.exc e)) (cc : Cond) :
    exec (.repbi cc fo) s = .next (takeException s e) ∧ exec (.repbc cc fo) s = .next (takeException s e) := by
  have hrepbi : repbiState cc fo s = .error (.exc e) := by rw [repbiState, h, bind_error]
  have hrepbc : repbcState cc fo s = .error (.exc e) := by rw [repbcState, h, bind_error]
  exact ⟨exec_takes_of_error hrepbi rfl, exec_takes_of_error hrepbc rfl⟩

end Sys2Proof.Machine

namespace Sys2Proof
open Machine

/-- Settles O19: each of the instructions checks the mode first. -/
theorem supervisorOnly : Obligations.SupervisorOnly := by
  intro s hx
  refine ⟨fun i hi => ?plain, fun a => ⟨?dflush, ?iflush, ?storegf, ?rstregf⟩, fun ss => ⟨?inp, ?outp⟩, fun ss cc => ?repeated⟩
  case plain =>
    have hexec : ∃ f, exec i s = finish s (Machine.supervisorOnly s >>= f) := by fin_cases hi <;> exact ⟨_, rfl⟩
    obtain ⟨f, hexec⟩ := hexec
    exact exec_prot_of_supervisorOnly hx hexec
  case dflush | iflush | storegf | rstregf => exact exec_prot_of_supervisorOnly hx rfl
  case inp =>
    exact exec_takes_of_error (r := thenNext s (inOnce ss s)) (by rw [thenNext, inOnce_of_program hx, bind_error]) rfl
  case outp =>
    exact exec_takes_of_error (r := thenNext s (outOnce ss s)) (by rw [thenNext, outOnce_of_program hx, bind_error]) rfl
  case repeated =>
    have hinp : followerCheck s (.inp ss) = .error (.exc .prot) := by rw [followerCheck, not_supervisor hx, require_false]
    have houtp : followerCheck s (.outp ss) = .error (.exc .prot) := by rw [followerCheck, not_supervisor hx, require_false]
    exact ⟨(exec_prefix_takes hinp cc).1, (exec_prefix_takes houtp cc).1, (exec_prefix_takes hinp cc).2, (exec_prefix_takes houtp cc).2⟩

end Sys2Proof

namespace Sys2Proof.Machine

/-! ### Byte stores of a machine-specific instruction (46 R475, log 23) -/

section
variable {cfg : Params} {a : Word}

/-- A store in memory, and one where there is none. -/
theorem machineStores_cons_of_present (hr : physInRange cfg a = true) (hp : present cfg a = true) (m : Memory) (b : Byte)
    (l : List (Word × Byte)) : machineStores cfg m ((a, b) :: l) = machineStores cfg (m.write a.toNat b) l := by
  rw [machineStores, hr, hp, Bool.and_self, if_pos rfl]

theorem machineStores_cons_of_absent (h : physInRange cfg a = false ∨ present cfg a = false) (m : Memory) (b : Byte)
    (l : List (Word × Byte)) : machineStores cfg m ((a, b) :: l) = machineStores cfg m l := by
  rw [machineStores, if_neg (by rw [Bool.and_eq_true, not_and_or, Bool.not_eq_true, Bool.not_eq_true]; exact h)]

/-- The stores are made in order. -/
theorem machineStores_append (cfg : Params) (k l : List (Word × Byte)) (m : Memory) :
    machineStores cfg m (k ++ l) = machineStores cfg (machineStores cfg m k) l := by
  induction k generalizing m with
  | nil => rfl
  | cons c k ih => exact ih _

/-- A byte that no store names keeps its value. -/
theorem read_machineStores_other (cfg : Params) {l : List (Word × Byte)} {k : Nat} (m : Memory) (h : ∀ c ∈ l, c.1.toNat ≠ k) :
    (machineStores cfg m l).read k = m.read k := by
  induction l generalizing m with
  | nil => rfl
  | cons c l ih =>
    obtain ⟨a, b⟩ := c
    obtain ⟨hhead, htail⟩ := List.forall_mem_cons.1 h
    rw [machineStores, ih _ htail]
    split
    · exact read_write_other m _ _ b (Ne.symm hhead)
    · rfl

end

/-! ### The effect of a machine-specific instruction (46 R475, log 23) -/

section
variable {s : State} {next : Word} {e : MachineEffect}

/-- The state after the stores and flags of an effect, before the caches and the target. -/
def machineWritten (s : State) (e : MachineEffect) : State :=
  { s with mem := machineStores s.cfg s.mem e.stores, flags := writtenFlags s e.flags, halted := e.halts }

/-- With no register writes and no flush, what is left is the target. -/
theorem machineApply_of_plain (hr : e.registers = []) (hf : e.flushes = false) (next : Word) :
    (e.target = none → machineApply s next e = .ok { machineWritten s e with ip := next }) ∧
      (∀ t, e.target = some t → checkTarget (machineWritten s e) (machineWritten s e).xm t = .ok () →
        machineApply s next e = .ok (branchTo (machineWritten s e) t)) := by
  constructor
  · intro ht
    rw [machineApply, hr, machineRegisters, bind_ok, hf, ht]
    rfl
  · intro t ht hc
    rw [machineApply, hr, machineRegisters, bind_ok, hf, ht]
    show (do checkTarget (machineWritten s e) (machineWritten s e).xm t; .ok (branchTo (machineWritten s e) t)) = _
    rw [hc, bind_ok]

/-- A flush also synchronises the instruction stream and the page tables. -/
theorem machineApply_of_flush (hr : e.registers = []) (hf : e.flushes = true) (ht : e.target = none) (next : Word) :
    machineApply s next e = .ok { syncCode (flushPages (machineWritten s e)) with ip := next } := by
  rw [machineApply, hr, machineRegisters, bind_ok, hf, ht]
  rfl

/-- The first register write, then the rest of the effect. -/
theorem machineApply_cons {n : BitVec 8} {v : Word} {l : List (BitVec 8 × Word)} (hr : e.registers = (n, v) :: l) (next : Word) :
    machineApply s next e = (do
      regWriteCheck s n.toNat
      regValueCheck s n.toNat v
      machineApply (putReg s n.toNat v) next { e with registers := l }) := by
  rw [machineApply, hr, machineRegisters]
  cases regWriteCheck s n.toNat with
  | error => rfl
  | ok =>
    cases regValueCheck s n.toNat v with
    | error => rfl
    | ok => rfl

end

/-- The machine does not provide an opcode that it does not list. -/
theorem machineOpcode_eq_none_iff {cfg : Params} {lo : BitVec 5} :
    machineOpcode cfg lo = none ↔ ∀ m ∈ cfg.machInstr, m.lo ≠ lo := by
  simp only [machineOpcode, List.find?_eq_none, beq_iff_eq]

section
variable {s : State} {lo : BitVec 5} {m : MachineOpcode} (h : BitVec 4)

theorem machineState_of_none (hm : machineOpcode s.cfg lo = none) : machineState lo h s = .error (.exc .und) := by
  rw [machineState, hm]

theorem machineState_of_program (hm : machineOpcode s.cfg lo = some m) (hx : s.xm = true) :
    machineState lo h s = .error (.exc .prot) := by
  simp only [machineState, hm, supervisorOnly_of_program hx, bind_error]

theorem exec_machineSpecific (lo : BitVec 5) (s : State) : exec (.machineSpecific lo h) s = finish s (machineState lo h s) := rfl

end

/-- The effect that the machine gives an opcode, or the exception it gives (log 23). -/
theorem exec_machineSpecific_of_supervisor {s : State} {lo : BitVec 5} {m : MachineOpcode} (h : BitVec 4)
    (hm : machineOpcode s.cfg lo = some m) (hx : s.xm = false) :
    exec (.machineSpecific lo h) s =
      match Config.machineEffect lo h s with
      | .ok e => finish s (machineApply s (s.ip + BitVec.ofNat 64 (2 + 2 * m.units.val)) e)
      | .error x => .next (takeException s x) := by
  simp only [exec_machineSpecific, machineState, hm, supervisorOnly_of_supervisor hx, bind_ok]
  cases Config.machineEffect lo h s with
  | ok e => rfl
  | error x => rfl

/-! ### Operand constraints (30 R209) -/

/-- The two-operand instructions with the shape of `add`. -/
theorem exec_und_of_not_aluShape {s : State} {l f : Bool} {a b : Operand} (hs : aluShape l a b = false) :
    ∀ k ∈ [Instr.add, .sub, .and, .or, .xor, .lsh, .rsh, .arsh, .lshc, .rshc, .lrot, .rrot],
      exec (k l f a b) s = .next (takeException s .und) := by
  intro k hk
  have hexec : ∃ g, exec (k l f a b) s = finish s (require (aluShape l a b) (.exc .und) >>= g) := by
    fin_cases hk <;> exact ⟨_, rfl⟩
  obtain ⟨g, hexec⟩ := hexec
  exact exec_takes_of_require hs hexec

/-- The gpr forms that write their operand. -/
theorem exec_und_of_not_writable {s : State} {g : BitVec 4} {a : Operand} (ha : isWritable a = false) :
    ∀ k ∈ [Instr.movrFromGpr, .addrGprSrc, .subrGprSrc, .andrGprSrc, .orrGprSrc, .xorrGprSrc],
      exec (k g a) s = .next (takeException s .und) := by
  intro k hk
  have hexec : ∃ f, exec (k g a) s = finish s (require (isWritable a) (.exc .und) >>= f) := by
    fin_cases hk <;> exact ⟨_, rfl⟩
  obtain ⟨f, hexec⟩ := hexec
  exact exec_takes_of_require ha hexec

/-- The instructions whose operand is memory. -/
theorem exec_und_of_not_mem {s : State} {g : BitVec 4} {a : Operand} (ha : isMem a = false) :
    ∀ i ∈ [Instr.lear g a, .stogpr a, .stoar a, .rstogpr a, .rstoar a], exec i s = .next (takeException s .und) := by
  intro i hi
  have hexec : ∃ f, exec i s = finish s (require (isMem a) (.exc .und) >>= f) := by
    fin_cases hi <;> exact ⟨_, rfl⟩
  obtain ⟨f, hexec⟩ := hexec
  exact exec_takes_of_require ha hexec

/-- And the supervisor instructions among them, in supervisor mode. -/
theorem exec_und_of_not_mem_supervisor {s : State} {a : Operand} (ha : isMem a = false) (hx : s.xm = false) :
    ∀ i ∈ [Instr.dflush a, .iflush a, .storegf a, .rstregf a], exec i s = .next (takeException s .und) := by
  intro i hi
  have hexec : ∃ f, exec i s = finish s (supervisorOnly s >>= fun _ => require (isMem a) (.exc .und) >>= f) := by
    fin_cases hi <;> exact ⟨_, rfl⟩
  obtain ⟨f, hexec⟩ := hexec
  exact exec_takes_of_supervisorOnly ha hx hexec

/-- Settles O32: the opcodes, the parts of a machine-specific effect, and the first check of each instruction. -/
theorem undefinedTraps : Obligations.UndefinedTraps := by
  refine ⟨fun s => ⟨fun _ => rfl, fun _ => rfl, fun lo h => ⟨?absent, ?program, fun m hm hx => ?effect⟩,
      fun next e hr hf => ⟨fun a => read_machineStores_other s.cfg s.mem, machineApply_of_plain hr hf next⟩,
      fun next e n v l x hr => ?registers, fun next e hr hf ht => machineApply_of_flush hr hf ht next, fun l a b => ?stores,
      fun cc w => exec_prefix_takes (fo := .invalid w) rfl cc⟩,
    fun s l f a b c g => ⟨exec_und_of_not_aluShape, exec_und_of_not_writable, fun hs => ?mov, fun hs => ?lea, exec_und_of_not_mem,
      exec_und_of_not_mem_supervisor, fun hs => ?pop, fun hs => ?movsx, fun hs => ?bswap, fun hs => ⟨?bnot, ?neg⟩,
      fun hs => ⟨?cmp, ?test⟩, fun hs => ⟨?xchg, ?cmpxchg, ?wcmpxchg⟩⟩⟩
  case absent =>
    intro hnone
    exact exec_takes_of_error (machineState_of_none h (machineOpcode_eq_none_iff.2 hnone)) rfl
  case program =>
    intro hsome hx
    obtain ⟨m, hm⟩ : ∃ m, machineOpcode s.cfg lo = some m := by
      rw [← Option.ne_none_iff_exists', ne_eq, machineOpcode_eq_none_iff]
      simpa using hsome
    exact exec_takes_of_error (machineState_of_program h hm hx) (exec_machineSpecific h lo s)
  case effect => exact exec_machineSpecific_of_supervisor h hm hx
  case registers =>
    rw [machineApply_cons hr]
    refine ⟨fun hw => ?_, fun hw hv => ?_, fun hw hv => ?_⟩
    · rw [hw, bind_error]
    · rw [hw, bind_ok, hv, bind_error]
    · rw [hw, bind_ok, hv, bind_ok]
  case stores =>
    rw [machineStores_append]
    refine ⟨fun hr hp => ?_, fun h => machineStores_cons_of_absent h ..⟩
    rw [machineStores_cons_of_present hr hp]
    exact ⟨read_write_same .., fun k hk => read_write_other _ _ _ _ hk⟩
  case mov | lea | pop | movsx | bswap | bnot | neg | cmp | test | xchg | cmpxchg | wcmpxchg => exact exec_takes_of_require hs rfl

end Sys2Proof.Machine
end

section
/-!
The two-operand ALU instructions, multiplication and division: what their operations answer and raise; O33, O35, O36.
-/

namespace Sys2Proof.Machine

/-! ### `add`, `sub`, `and`, `or`, `xor` (40 R241 to R247) -/

section
variable {β : Type} {s : State} {n : Word} {a b : Operand} {x y : Word} {dst : Dest} {t : Trap}
  {g : Word → Word → Dest → Except Trap β}

/-- An operand that is read and written, and a second one that is read: the checks, the loads, then the destination (30 R209). -/
theorem update_read_then (hx : Reads s n a x) (hy : Reads s n b y) (hw : opWriteCheck s a = .ok ()) (hd : destOf s n a = .ok dst) :
    (do opUpdateCheck s a; opReadCheck s b; let v ← loadOp s n a; let w ← loadOp s n b; let p ← destOf s n a; g v w p) =
      g x y dst := by
  obtain ⟨hxcheck, hxload⟩ := hx
  obtain ⟨hycheck, hyload⟩ := hy
  rw [(opUpdateCheck_ok_iff s a ()).2 ⟨hxcheck, hw⟩, bind_ok, hycheck, bind_ok, hxload, bind_ok, hyload, bind_ok, hd, bind_ok]

theorem update_read_then_of_raises
    (h : Raises [opUpdateCheck s a, opReadCheck s b, attempt (loadOp s n a), attempt (loadOp s n b), attempt (destOf s n a)] t) :
    (do opUpdateCheck s a; opReadCheck s b; let v ← loadOp s n a; let w ← loadOp s n b; let p ← destOf s n a; g v w p) = .error t :=
  raises_bind_check h fun h => raises_bind_check h fun h => raises_bind h fun _ _ h => raises_bind h fun _ _ h =>
    raises_bind h fun _ _ h => absurd h (raises_nil t)

end

section
variable {op : AluOp} {l f : Bool} {a b : Operand} {s : State} {x y r : Word} {dst : Dest} {t : Trap}

/-- With the operands read, what is left is the check of the result. -/
theorem aluTwo_of_reads (hs : aluShape l a b = true) (hx : Reads s (nextIp s [a, b]) a x) (hy : Reads s (nextIp s [a, b]) b y)
    (hw : opWriteCheck s a = .ok ()) (hd : destOf s (nextIp s [a, b]) a = .ok dst) (hr : op.ResultIs (bitsOf a) x y r) :
    aluTwo op l f a b s = (do
      destCheck s dst r
      .ok { putDest s dst r with
        flags := if f then s.flags else aluFlagsWide op s.flags (bitsOf a) x y r s.freeCtr, ip := nextIp s [a, b] }) := by
  obtain rfl := (resultIs_iff (bitsOf_le a) op x y r).1 hr
  rw [aluTwo, hs, require_true, bind_ok]
  exact update_read_then hx hy hw hd

theorem aluTwo_of_raises (hs : aluShape l a b = true)
    (h : Raises [opUpdateCheck s a, opReadCheck s b, attempt (loadOp s (nextIp s [a, b]) a), attempt (loadOp s (nextIp s [a, b]) b),
      attempt (destOf s (nextIp s [a, b]) a)] t) : aluTwo op l f a b s = .error t := by
  rw [aluTwo, hs, require_true, bind_ok]
  exact update_read_then_of_raises h

end

/-- Z and N are the result's, whether or not the second source fits (10 R50). -/
theorem aluFlagsWide_znOf (op : AluOp) (f : Word) (d : Nat) (a b r : Word) (ctr : Nat) :
    ZNOf (aluFlagsWide op f d a b r ctr) r d := by
  unfold aluFlagsWide
  split
  · exact aluFlags_znOf op f d a b r
  · exact setZN_znOf _ r d

/-- Where the second source fits, C and V follow the rules too. -/
theorem aluFlagsWide_of_fits {op : AluOp} {f : Word} {d : Nat} {a b r : Word} {ctr : Nat} (hb : b.toNat < 2 ^ d) :
    aluFlagsWide op f d a b r ctr = aluFlags op f d a b r := if_pos hb

/-- Settles O33: each instruction is `aluTwo` of its operation. -/
theorem aluResult : Obligations.AluResult := by
  intro p hp l f a b s hs
  have hexec : exec (p.1 l f a b) s = finish s (aluTwo p.2 l f a b s) := by fin_cases hp <;> rfl
  refine ⟨fun x y r dst hx hy hr ⟨hw, hd, hc⟩ => ?result, fun t h => ?raised⟩
  case result =>
    refine ⟨_, exec_next_of_ok hexec ((aluTwo_of_reads hs hx hy hw hd hr).trans (put_of_ok hc)), ?_, ?_⟩
    · rintro rfl; rfl
    · rintro rfl
      exact ⟨aluFlagsWide_znOf .., aluFlagsWide_keeps .., aluFlagsWide_of_fits⟩
  case raised =>
    obtain h | ⟨x, y, r, hx, hy, hr, hw, dst, hd, hc⟩ := h
    · exact abandons_of_error hexec (aluTwo_of_raises hs h)
    · exact abandons_of_error hexec ((aluTwo_of_reads hs hx hy hw hd hr).trans (put_of_error hc))

/-! ### Integers of `d` bits (00 R12) -/

theorem ofNat_toNat_of_lt {d : Nat} (hd : d ≤ 64) {n : Nat} (hn : n < 2 ^ d) : (BitVec.ofNat 64 n).toNat = n := by
  rw [BitVec.toNat_ofNat, Nat.mod_eq_of_lt (hn.trans_le (Nat.pow_le_pow_right (by decide) hd))]

theorem sizeBits_pos (sz : Size) : 0 < sizeBits sz := by cases sz <;> decide

/-- The two's complement integer of the model is that of the rules. -/
theorem signedOf_eq {d : Nat} (hpos : 0 < d) (v : Word) : signedOf d v = signedValue d v := by
  obtain ⟨e, rfl⟩ : ∃ e, d = e + 1 := ⟨d - 1, by omega⟩
  rw [signedOf, signedValue, BitVec.toInt_eq_toNat_cond, BitVec.toNat_setWidth, Nat.add_sub_cancel]
  have hhalf : 2 * (v.toNat % 2 ^ (e + 1)) < 2 ^ (e + 1) ↔ v.toNat % 2 ^ (e + 1) < 2 ^ e := by
    rw [pow_succ' 2 e, Nat.mul_lt_mul_left (by decide)]
  simp only [hhalf]
  push_cast
  rfl

theorem signedOf_eq_zero_iff (d : Nat) (v : Word) : signedOf d v = 0 ↔ v.toNat % 2 ^ d = 0 := by
  rw [signedOf, ← BitVec.toInt_zero (w := d), BitVec.toInt_inj, BitVec.toNat_eq, BitVec.toNat_setWidth, BitVec.toNat_ofNat,
    Nat.zero_mod]

/-- A narrowed integer is its remainder modulo `2 ^ d`. -/
theorem narrow_toNat {d : Nat} (hd : d ≤ 64) (i : Int) : ((narrow d i).toNat : Int) = i % (2 ^ d : Int) := by
  rw [narrow, trunc_toNat hd, BitVec.toNat_ofInt, Int.natCast_mod, Int.toNat_of_nonneg (Int.emod_nonneg _ (by positivity))]
  push_cast
  exact Int.emod_emod_of_dvd i (pow_dvd_pow 2 hd)

theorem not_fitsSigned_iff (d : Nat) (i : Int) :
    (!fitsSigned d i) = true ↔ i < -(2 ^ (d - 1) : Int) ∨ (2 ^ (d - 1) : Int) ≤ i := by
  rw [fitsSigned, Bool.not_eq_true', Bool.and_eq_false_iff, decide_eq_false_iff_not, decide_eq_false_iff_not, not_le, not_lt]

/-! ### What the four instructions leave (40 R250) -/

/-- Both results, the next address, and C, V, Z, N unless `f`. -/
theorem exec_mulDivResult {i : Instr} {s : State} {d : Nat} {f : Bool} {r0 r3 : Word} {c v : Bool}
    (hexec : exec i s = .next (mulDivResult s d f r0 r3 c v)) :
    ∃ fl, exec i s = .next { setGpr (setGpr s 0 r0) 3 r3 with flags := fl, ip := s.ip + 2 } ∧ (f = true → fl = s.flags) ∧
      (f = false → flagC fl = c ∧ flagV fl = v ∧ ZNOf fl r0 d ∧ KeepsFlags 0x0f s.flags fl) := by
  refine ⟨_, hexec, ?_, ?_⟩
  · rintro rfl; rfl
  · rintro rfl
    refine ⟨?_, ?_, setZN_znOf .., ?_⟩
    · exact (flagC_setZN ..).trans (flagC_setCV ..)
    · exact (flagV_setZN ..).trans (flagV_setCV ..)
    · exact ((setCV_keeps s.flags c v).mono (by decide)).trans ((setZN_keeps _ r0 d).mono (by decide))

/-- An unsigned instruction: the results as numbers, C exact, V free. -/
theorem exec_mulDivResult_unsigned {i : Instr} {s : State} {d : Nat} (hd : d ≤ 64) {f : Bool} {lo hi : Nat}
    (hlo : lo < 2 ^ d) (hhi : hi < 2 ^ d) {c v : Bool}
    (hexec : exec i s = .next (mulDivResult s d f (BitVec.ofNat 64 lo) (BitVec.ofNat 64 hi) c v)) :
    ∃ r0 r3 fl, exec i s = .next { setGpr (setGpr s 0 r0) 3 r3 with flags := fl, ip := s.ip + 2 } ∧ r0.toNat = lo ∧ r3.toNat = hi ∧
      (f = true → fl = s.flags) ∧ (f = false → flagC fl = c ∧ ZNOf fl r0 d ∧ KeepsFlags 0x0f s.flags fl) := by
  obtain ⟨fl, hnext, hkept, hwritten⟩ := exec_mulDivResult hexec
  refine ⟨_, _, fl, hnext, ofNat_toNat_of_lt hd hlo, ofNat_toNat_of_lt hd hhi, hkept, fun hf => ?_⟩
  obtain ⟨hc, -, hzn, hother⟩ := hwritten hf
  exact ⟨hc, hzn, hother⟩

/-- A signed instruction whose exact result is `q`: the results as remainders, V exact, C free. -/
theorem exec_mulDivResult_signed {i : Instr} {s : State} {d : Nat} (hd : d ≤ 64) {f : Bool} {q k : Int} {c : Bool}
    (hexec : exec i s = .next (mulDivResult s d f (narrow d q) (narrow d k) c (!fitsSigned d q))) :
    ∃ r0 r3 fl, exec i s = .next { setGpr (setGpr s 0 r0) 3 r3 with flags := fl, ip := s.ip + 2 } ∧
      (r0.toNat : Int) = q % (2 ^ d : Int) ∧ (r3.toNat : Int) = k % (2 ^ d : Int) ∧ (f = true → fl = s.flags) ∧
      (f = false → (flagV fl = true ↔ q < -(2 ^ (d - 1) : Int) ∨ (2 ^ (d - 1) : Int) ≤ q) ∧ ZNOf fl r0 d ∧
        KeepsFlags 0x0f s.flags fl) := by
  obtain ⟨fl, hnext, hkept, hwritten⟩ := exec_mulDivResult hexec
  refine ⟨_, _, fl, hnext, narrow_toNat hd q, narrow_toNat hd k, hkept, fun hf => ?_⟩
  obtain ⟨-, hv, hzn, hother⟩ := hwritten hf
  exact ⟨hv ▸ not_fitsSigned_iff d q, hzn, hother⟩

/-! ### `mul` and `imul` (40 R251, R253) -/

/-- The high half of a product is not 0 where the product does not fit. -/
theorem div_two_pow_bne_zero (p d : Nat) : (p / 2 ^ d != 0) = decide (2 ^ d ≤ p) := by
  rw [Bool.eq_iff_iff, bne_iff_ne, decide_eq_true_iff, Nat.div_ne_zero_iff, and_iff_right (Nat.two_pow_pos d).ne']

theorem mulState_eq (ss : Size) (f : Bool) (s : State) :
    let d := sizeBits ss
    let p := (getGpr s 0).toNat % 2 ^ d * ((getGpr s 3).toNat % 2 ^ d)
    mulState ss f s = mulDivResult s d f (BitVec.ofNat 64 (p % 2 ^ d)) (BitVec.ofNat 64 (p / 2 ^ d)) (decide (2 ^ d ≤ p))
      (Config.freeV s.freeCtr) := by
  simp only [mulState, trunc_toNat (sizeBits_le ss), div_two_pow_bne_zero]

theorem imulState_eq (ss : Size) (f : Bool) (s : State) :
    let d := sizeBits ss
    let q := signedValue d (getGpr s 0) * signedValue d (getGpr s 3)
    imulState ss f s = mulDivResult s d f (narrow d q) (narrow d (q / (2 ^ d : Int))) (Config.freeC s.freeCtr) (!fitsSigned d q) := by
  simp only [imulState, signedOf_eq (sizeBits_pos ss)]

/-- Settles O35: the product of two `d`-bit values has a high half of `d` bits. -/
theorem multiplyResult : Obligations.MultiplyResult := by
  intro s ss f
  have hd := sizeBits_le ss
  have hmul : exec (.mul ss f) s = .next (mulState ss f s) := rfl
  have himul : exec (.imul ss f) s = .next (imulState ss f s) := rfl
  rw [mulState_eq] at hmul
  rw [imulState_eq] at himul
  have hlow (n : Nat) : n % 2 ^ sizeBits ss < 2 ^ sizeBits ss := Nat.mod_lt n (Nat.two_pow_pos _)
  have hhigh := Nat.div_lt_of_lt_mul (Nat.mul_lt_mul'' (hlow (getGpr s 0).toNat) (hlow (getGpr s 3).toNat))
  exact ⟨exec_mulDivResult_unsigned hd (hlow _) hhigh hmul, exec_mulDivResult_signed hd himul⟩

/-! ### `div` and `idiv` (40 R252, R254) -/

/-- The dividend of `div`: D bits, or with `w` 2D bits with the high half in r1 (40 R252). -/
def divDividend (s : State) (d : Nat) (w : Bool) : Nat :=
  (if w then (getGpr s 1).toNat % 2 ^ d * 2 ^ d else 0) + (getGpr s 0).toNat % 2 ^ d

theorem idivDividend_eq {d : Nat} (hpos : 0 < d) (hd : d ≤ 64) (s : State) (w : Bool) :
    idivDividend s d w =
      if w then signedValue d (getGpr s 1) * (2 ^ d : Int) + (((getGpr s 0).toNat % 2 ^ d : Nat) : Int)
      else signedValue d (getGpr s 0) := by
  rw [idivDividend, signedOf_eq hpos, signedOf_eq hpos, trunc_toNat hd]

section
variable {s : State} {ss : Size} (w f : Bool)

/-- A divisor of 0 raises DIV (60 R517). -/
theorem divState_of_zero (h : (getGpr s 3).toNat % 2 ^ sizeBits ss = 0) : divState ss w f s = .error (.exc .div) := by
  rw [divState, trunc_toNat (sizeBits_le ss), h]
  rfl

theorem idivState_of_zero (h : (getGpr s 3).toNat % 2 ^ sizeBits ss = 0) : idivState ss w f s = .error (.exc .div) := by
  rw [idivState, (signedOf_eq_zero_iff _ _).2 h]
  rfl

theorem divState_of_ne_zero (h : (getGpr s 3).toNat % 2 ^ sizeBits ss ≠ 0) :
    let d := sizeBits ss
    let m := (getGpr s 3).toNat % 2 ^ d
    let n := divDividend s d w
    divState ss w f s = .ok (mulDivResult s d f (BitVec.ofNat 64 (n / m % 2 ^ d)) (BitVec.ofNat 64 (n % m)) (decide (2 ^ d ≤ n / m))
      (Config.freeV s.freeCtr)) := by
  have hn : (if w then (getGpr s 1).toNat % 2 ^ sizeBits ss * 2 ^ sizeBits ss + (getGpr s 0).toNat % 2 ^ sizeBits ss
      else (getGpr s 0).toNat % 2 ^ sizeBits ss) = divDividend s (sizeBits ss) w := by
    cases w <;> simp [divDividend]
  simp only [divState, trunc_toNat (sizeBits_le ss), bne_iff_ne.2 h, require_true, bind_ok, hn]

theorem idivState_of_ne_zero (h : (getGpr s 3).toNat % 2 ^ sizeBits ss ≠ 0) :
    let d := sizeBits ss
    let n := idivDividend s d w
    let m := signedValue d (getGpr s 3)
    idivState ss w f s = .ok (mulDivResult s d f (narrow d (n.tdiv m)) (narrow d (n.tmod m)) (Config.freeC s.freeCtr)
      (!fitsSigned d (n.tdiv m))) := by
  have hne : signedValue (sizeBits ss) (getGpr s 3) ≠ 0 := by
    rwa [← signedOf_eq (sizeBits_pos ss), ne_eq, signedOf_eq_zero_iff]
  simp only [idivState, signedOf_eq (sizeBits_pos ss), bne_iff_ne.2 hne, require_true, bind_ok]

end

/-- Settles O36: a quotient is truncated to `d` bits, and a remainder is less than its divisor. -/
theorem divideResult : Obligations.DivideResult := by
  intro s ss w f
  have hd := sizeBits_le ss
  have hdiv : exec (.div ss w f) s = finish s (divState ss w f s) := rfl
  have hidiv : exec (.idiv ss w f) s = finish s (idivState ss w f s) := rfl
  have hlow (n : Nat) : n % 2 ^ sizeBits ss < 2 ^ sizeBits ss := Nat.mod_lt n (Nat.two_pow_pos _)
  refine ⟨fun hm => ⟨?divZero, ?idivZero⟩, fun hm => ?div, fun hm => ?idiv⟩
  case divZero => exact exec_takes_of_error (divState_of_zero w f hm) hdiv
  case idivZero => exact exec_takes_of_error (idivState_of_zero w f hm) hidiv
  case div =>
    have hremainder := (Nat.mod_lt (divDividend s (sizeBits ss) w) (Nat.pos_of_ne_zero hm)).trans (hlow (getGpr s 3).toNat)
    exact exec_mulDivResult_unsigned hd (hlow _) hremainder (exec_next_of_ok hdiv (divState_of_ne_zero w f hm))
  case idiv =>
    have hsigned := exec_mulDivResult_signed hd (exec_next_of_ok hidiv (idivState_of_ne_zero w f hm))
    rw [idivDividend_eq (sizeBits_pos ss) hd] at hsigned
    exact hsigned

end Sys2Proof.Machine
end

section
/-!
Sign extension and byte reversal, `nop` and `fence`, the stack and the bulk stores: what their operations answer and raise; O38, O39, O40,
O41.
-/

namespace Sys2Proof.Machine

/-! ### `nop` and `fence` (41 R290, 44 R406) -/

/-- An operand is encoded in as many bytes as `next` counts for it (30 R183). -/
theorem encode_length_eq (a : Operand) : a.encode.length = operandLength a := by
  rw [Operand.encode_length]
  cases a with
  | reg | ind | short => rfl
  | long rel imm => exact congrArg (2 + ·) imm.encode_length
  | mref rel imm sz => exact congrArg (2 + ·) imm.encode_length

/-- An instruction of which only the length matters advances `ip` by its encoding. -/
theorem exec_skip {i : Instr} {s : State} {n : Nat} (hexec : exec i s = finish s (.ok (skip s n))) (hlen : (encode i).length = n) :
    exec i s = .next { s with ip := s.ip + BitVec.ofNat 64 (encode i).length } := by
  rw [hexec, hlen]
  rfl

/-- Settles O39: the operands of a `nop` are skipped by the length of their encodings. -/
theorem nopFence : Obligations.NopFence := by
  intro s a b c
  refine ⟨exec_skip rfl rfl, exec_skip rfl ?_, exec_skip rfl ?_, exec_skip rfl ?_, exec_skip rfl rfl⟩ <;>
    simp only [encode, List.length_append, opcodeWord_length, encode_length_eq]

/-! ### A destination, and a source that is read (30 R209) -/

section
variable {β : Type} {s : State} {n : Word} {a b : Operand} {y : Word} {dst : Dest} {t : Trap} {g : Word → Dest → Except Trap β}

theorem write_read_then (hw : opWriteCheck s a = .ok ()) (hy : Reads s n b y) (hd : destOf s n a = .ok dst) :
    (do opWriteCheck s a; opReadCheck s b; let v ← loadOp s n b; let p ← destOf s n a; g v p) = g y dst := by
  obtain ⟨hcheck, hload⟩ := hy
  rw [hw, bind_ok, hcheck, bind_ok, hload, bind_ok, hd, bind_ok]

theorem write_read_then_of_raises
    (h : Raises [opWriteCheck s a, opReadCheck s b, attempt (loadOp s n b), attempt (destOf s n a)] t) :
    (do opWriteCheck s a; opReadCheck s b; let v ← loadOp s n b; let p ← destOf s n a; g v p) = .error t :=
  raises_bind_check h fun h => raises_bind_check h fun h => raises_bind h fun _ _ h => raises_bind h fun _ _ h =>
    absurd h (raises_nil t)

end

/-! ### `movsx` and `bswap` (41 R314 to R316) -/

theorem bitsOf_pos (a : Operand) : 0 < bitsOf a := by
  cases a with
  | reg sz r => exact sizeBits_pos sz
  | ind i k sz b => exact sizeBits_pos sz
  | mref rel imm sz => exact sizeBits_pos sz
  | short rel i =>
    cases rel with
    | true => exact Nat.zero_lt_succ 63
    | false => exact Nat.zero_lt_succ 11
  | long rel imm =>
    cases rel with
    | true => exact Nat.zero_lt_succ 63
    | false => cases imm <;> exact Nat.zero_lt_succ _

/-- The low bits of a sign extension, as an integer (41 R315). -/
theorem trunc_sext_toNat {d e : Nat} (hpos : 0 < e) (hd : d ≤ 64) (v : Word) :
    ((trunc d (sext e v)).toNat : Int) = signedValue e v % (2 ^ d : Int) := by
  rw [← signedOf_eq hpos]
  exact narrow_toNat hd (signedOf e v)

/-- Below the source's size a sign extension changes nothing. -/
theorem trunc_sext_of_le {d e : Nat} (hpos : 0 < e) (hd : d ≤ 64) (h : d ≤ e) (v : Word) : trunc d (sext e v) = trunc d v := by
  apply BitVec.eq_of_getLsbD_eq
  intro j hj
  rw [trunc_bit hd, trunc_bit hd, sext_bit hpos]
  by_cases hjd : j < d
  · rw [decide_eq_true hj, Bool.true_and, Nat.min_eq_left (by omega)]
  · rw [decide_eq_false hjd, Bool.false_and, Bool.false_and]

/-- The bytes of a value of `n` bytes determine it. -/
theorem eq_reverseBytes {n : Nat} {v r : Word} (hr : r.toNat < 256 ^ n) (h : bytesLE n r.toNat = (bytesLE n v.toNat).reverse) :
    r = reverseBytes n v := by
  rw [reverseBytes, ← h, valueLE_bytesLE, Nat.mod_eq_of_lt hr, BitVec.ofNat_toNat, BitVec.setWidth_eq]

section
variable {f : Bool} {a b : Operand} {s : State} {v r : Word} {dst : Dest} {t : Trap}

/-- With the source read, what is left is the check of the value. -/
theorem movsxState_of_reads (hs : movsxShape a b = true) (hv : Reads s (nextIp s [a, b]) b v)
    (hr : (r.toNat : Int) = signedValue (bitsOf b) v % (2 ^ bitsOf a : Int)) (hw : opWriteCheck s a = .ok ())
    (hd : destOf s (nextIp s [a, b]) a = .ok dst) :
    movsxState f a b s = (do
      destCheck s dst r
      .ok { putDest s dst r with flags := if f then s.flags else setZN s.flags r (bitsOf a), ip := nextIp s [a, b] }) := by
  have hpos := bitsOf_pos b
  have hle := bitsOf_le a
  have hext : r = trunc (bitsOf a) (sext (bitsOf b) v) :=
    BitVec.eq_of_toNat_eq (Int.natCast_inj.1 (hr.trans (trunc_sext_toNat hpos hle v).symm))
  have hvalue : (if bitsOf b ≥ bitsOf a then trunc (bitsOf a) v else trunc (bitsOf a) (sext (bitsOf b) v)) = r := by
    split
    · next h => rw [hext, trunc_sext_of_le hpos hle h]
    · exact hext.symm
  rw [movsxState, hs, require_true, bind_ok, ← hvalue]
  exact write_read_then hw hv hd

theorem movsxState_of_raises (hs : movsxShape a b = true)
    (h : Raises [opWriteCheck s a, opReadCheck s b, attempt (loadOp s (nextIp s [a, b]) b), attempt (destOf s (nextIp s [a, b]) a)] t) :
    movsxState f a b s = .error t := by
  rw [movsxState, hs, require_true, bind_ok]
  exact write_read_then_of_raises h

/-- A destination that `bswap` accepts has whole bytes (30 R200). -/
theorem bswapShape_bits (hs : bswapShape a b = true) : ∃ sz : Size, bitsOf a = 8 * sz.bytes := by
  simp only [bswapShape, movsxShape, Bool.and_eq_true] at hs
  obtain ⟨⟨-, hwritable⟩, -⟩ := hs
  exact bitsOf_writable hwritable

theorem bswapState_of_reads (hs : bswapShape a b = true) (hv : Reads s (nextIp s [a, b]) b v) (hlt : r.toNat < 2 ^ bitsOf a)
    (hr : bytesLE (bitsOf a / 8) r.toNat = (bytesLE (bitsOf a / 8) v.toNat).reverse) (hw : opWriteCheck s a = .ok ())
    (hd : destOf s (nextIp s [a, b]) a = .ok dst) :
    bswapState f a b s = (do
      destCheck s dst r
      .ok { putDest s dst r with flags := if f then s.flags else setZN s.flags r (bitsOf a), ip := nextIp s [a, b] }) := by
  have hbytes : 256 ^ (bitsOf a / 8) = 2 ^ bitsOf a := by
    obtain ⟨sz, hsz⟩ := bswapShape_bits hs
    rw [hsz, Nat.mul_div_cancel_left _ (by decide), Nat.pow_mul]
  rw [bswapState, hs, require_true, bind_ok, eq_reverseBytes (hbytes ▸ hlt) hr]
  exact write_read_then hw hv hd

theorem bswapState_of_raises (hs : bswapShape a b = true)
    (h : Raises [opWriteCheck s a, opReadCheck s b, attempt (loadOp s (nextIp s [a, b]) b), attempt (destOf s (nextIp s [a, b]) a)] t) :
    bswapState f a b s = .error t := by
  rw [bswapState, hs, require_true, bind_ok]
  exact write_read_then_of_raises h

end

/-- An operation that ends by writing `r` to operand `a`, with Z and N unless `f`: what it answers where `r` is accepted, and what it raises
where it is not. -/
theorem exec_put_znOf {i : Instr} {s : State} {n r : Word} {a : Operand} {f : Bool} {o : Except Trap State} (hexec : exec i s = finish s o)
    (ho : ∀ {dst}, opWriteCheck s a = .ok () → destOf s n a = .ok dst → o = (do
      destCheck s dst r
      .ok { putDest s dst r with flags := if f then s.flags else setZN s.flags r (bitsOf a), ip := n })) :
    (∀ dst, Accepts s n a dst r → ∃ fl, exec i s = .next { putDest s dst r with flags := fl, ip := n } ∧
      (f = true → fl = s.flags) ∧ (f = false → ZNOf fl r (bitsOf a) ∧ KeepsFlags 0x0a s.flags fl)) ∧
    ∀ t, Rejects s n a r t → Abandons i s t := by
  refine ⟨fun dst ⟨hw, hd, hc⟩ => ⟨_, exec_next_of_ok hexec ((ho hw hd).trans (put_of_ok hc)), ?_, ?_⟩,
    fun t ⟨hw, dst, hd, hc⟩ => abandons_of_error hexec ((ho hw hd).trans (put_of_error hc))⟩
  · rintro rfl; rfl
  · rintro rfl
    exact ⟨setZN_znOf .., setZN_keeps ..⟩

/-- Settles O38: both instructions read a source and write its extension, or its bytes reversed. -/
theorem extendAndSwapResult : Obligations.ExtendAndSwapResult := by
  intro s f a b
  have hmovsx : exec (.movsx f a b) s = finish s (movsxState f a b s) := rfl
  have hbswap : exec (.bswap f a b) s = finish s (bswapState f a b s) := rfl
  refine ⟨fun v r hv => ⟨fun hs hr => ?_, fun hs hlt hr => ?_⟩, fun t h => ⟨fun hs => ?_, fun hs => ?_⟩⟩
  · exact exec_put_znOf hmovsx (movsxState_of_reads hs hv hr)
  · exact exec_put_znOf hbswap (bswapState_of_reads hs hv hlt hr)
  · exact abandons_of_error hmovsx (movsxState_of_raises hs h)
  · exact abandons_of_error hbswap (bswapState_of_raises hs h)

/-! ### `push`, `pop` and their gpr forms (41 R294 to R298) -/

/-- A pushed value reads back, and every other byte is kept (41 R295). -/
theorem pushed_stored {s : State} {xm : Bool} {k : Access} {va : Word} {ps : List Nat} (hps : translateAll s xm k va 8 = .ok ps)
    (v : Word) : (s.mem.writeBytes ps (bytesLE 8 v.toNat)).readValue ps = v ∧
      ∀ a, a ∉ ps → (s.mem.writeBytes ps (bytesLE 8 v.toNat)).read a = s.mem.read a := by
  refine ⟨readValue_of_bytes (readBytes_writeBytes_same ps _ _ (translateAll_nodup (by decide) hps) ?_), read_writeBytes_other ps _ _⟩
  rw [bytesLE_length, translateAll_length hps]

section
variable {s : State} {a : Operand} {v : Word} {r : BitVec 4} {dst : Dest} {ps : List Nat} {t : Trap}

theorem pushState_of_reads (hv : Reads s (nextIp s [a]) a v) (hps : translateAll s s.xm .write (getGpr s 7 - 8) 8 = .ok ps) :
    pushState a s = .ok { pushAt s ps v with ip := nextIp s [a] } := by
  refine (read_then hv).trans ?_
  rw [pushCheck, hps, bind_ok]

theorem pushState_of_raises
    (h : Raises [opReadCheck s a, attempt (loadOp s (nextIp s [a]) a), attempt (translateAll s s.xm .write (getGpr s 7 - 8) 8)] t) :
    pushState a s = .error t :=
  raises_bind_check h fun h => raises_bind h fun _ _ h => raises_bind h fun _ _ h => absurd h (raises_nil t)

theorem pushrState_of_slot (hps : translateAll s s.xm .write (getGpr s 7 - 8) 8 = .ok ps) :
    pushrState r s = .ok { pushAt s ps (getGpr s r) with ip := nextAfter s 2 } := by
  rw [pushrState, pushCheck, hps, bind_ok]

theorem pushrState_of_raises (h : Raises [attempt (translateAll s s.xm .write (getGpr s 7 - 8) 8)] t) : pushrState r s = .error t :=
  raises_bind h fun _ _ h => absurd h (raises_nil t)

/-- With the value loaded and the destination known, what is left is the check of the value (log 5). -/
theorem popState_of_load (hs : popShape a = true) (hc : popCheck s a = .ok ()) (hv : memRead s (getGpr s 7) 8 = .ok v)
    (hd : popDest s (nextIp s [a]) a = .ok dst) :
    popState a s = (do
      destCheck s dst v
      .ok { (if dst = .reg 7 64 then putDest s dst v else setGpr (putDest s dst v) 7 (getGpr s 7 + 8)) with ip := nextIp s [a] }) := by
  rw [popState, hs, require_true, bind_ok, hc, bind_ok, hv, bind_ok, hd, bind_ok]

theorem popState_of_raises (hs : popShape a = true)
    (h : Raises [popCheck s a, attempt (memRead s (getGpr s 7) 8), attempt (popDest s (nextIp s [a]) a)] t) : popState a s = .error t := by
  rw [popState, hs, require_true, bind_ok]
  exact raises_bind_check h fun h => raises_bind h fun _ _ h => raises_bind h fun _ _ h => absurd h (raises_nil t)

/-- The one form that names `flags` and is wide enough is `reg64 17` (41 R296). -/
theorem popShape_ne_flags (hs : popShape a = true) (hflags : a ≠ .reg .b64 17) (sz : Size) : a ≠ .reg sz 17 := by
  rintro rfl
  cases sz with
  | b64 => exact hflags rfl
  | b8 | b16 | b32 => cases hs

/-- An operand other than `sp` does not go to `sp`. -/
theorem destOf_ne_sp {next : Word} (hs : popShape a = true) (hsp : a ≠ .reg .b64 7) (hd : destOf s next a = .ok dst) :
    dst ≠ .reg 7 64 := by
  obtain ⟨sz, q, rfl, rfl⟩ | ⟨-, ps, rfl, -⟩ := destOf_ok hd
  · intro h
    obtain ⟨hq, -⟩ := Dest.reg.inj h
    obtain rfl : q = 7 := BitVec.eq_of_toNat_eq hq
    cases sz with
    | b64 => exact hsp rfl
    | b8 | b16 | b32 => cases hs
  · exact Dest.noConfusion

theorem putDest_sp (s : State) (v : Word) : putDest s (.reg 7 64) v = setGpr s 7 v := by
  rw [putDest, trunc_of_lt (Nat.le_refl 64) v.isLt]
  exact putReg_gpr s 7 v

theorem poprState_of_load (hv : memRead s (getGpr s 7) 8 = .ok v) :
    poprState r s = .ok { setGpr (setGpr s 7 (getGpr s 7 + 8)) r v with ip := nextAfter s 2 } := by
  rw [poprState, hv, bind_ok]

theorem poprState_of_raises (h : Raises [attempt (memRead s (getGpr s 7) 8)] t) : poprState r s = .error t :=
  raises_bind h fun _ _ h => absurd h (raises_nil t)

/-- Of two writes of a register the second counts. -/
theorem setGpr_setGpr_same (s : State) (r : BitVec 4) (v w : Word) : setGpr (setGpr s r v) r w = setGpr s r w := by
  simp [setGpr]

end

/-- Settles O40: what the four operations answer once their accesses succeed, and what they raise. -/
theorem pushPopResult : Obligations.PushPopResult := by
  have hpush (a : Operand) (s : State) : exec (.push a) s = finish s (pushState a s) := rfl
  have hpushr (r : BitVec 4) (s : State) : exec (.pushr r) s = finish s (pushrState r s) := rfl
  have hpop (a : Operand) (s : State) : exec (.pop a) s = finish s (popState a s) := rfl
  have hpopr (r : BitVec 4) (s : State) : exec (.popr r) s = finish s (poprState r s) := rfl
  refine ⟨fun s ps hps => ⟨fun a v hv => ?push, fun r => ?pushr, pushed_stored hps⟩,
    fun s v hv => ⟨fun a dst hs hflags hsp ⟨hw, hd, hc⟩ => ?pop, ?popSp, ?popFlags, fun r hr => ?popr, ?poprSp,
      fun a t hs hflags ⟨hw, dst, hd, hc⟩ => ?popRejected⟩,
    fun s a r t => ⟨fun h => ?pushFault, fun h => ?pushrFault, fun hs hflags h => ?popFault,
      fun h => ⟨?popFlagsFault, ?poprFault⟩⟩⟩
  case push => exact exec_next_of_ok (hpush a s) (pushState_of_reads hv hps)
  case pushr => exact exec_next_of_ok (hpushr r s) (pushrState_of_slot hps)
  case pop =>
    obtain ⟨hcheck, hdest⟩ := pop_eq_write s (popShape_ne_flags hs hflags) (nextIp s [a])
    have hstate := (popState_of_load hs (hcheck.trans hw) hv (hdest.trans hd)).trans (put_of_ok hc)
    rw [if_neg (destOf_ne_sp hs hsp hd)] at hstate
    exact exec_next_of_ok (hpop a s) hstate
  case popSp =>
    have hstate := (popState_of_load (a := .reg .b64 7) (dst := .reg 7 64) rfl rfl hv rfl).trans (put_of_ok rfl)
    rw [if_pos rfl, putDest_sp] at hstate
    exact exec_next_of_ok (hpop _ s) hstate
  case popFlags => exact exec_next_of_ok (hpop _ s) (popState_of_load (a := .reg .b64 17) rfl rfl hv rfl)
  case popr => exact exec_next_of_ok (hpopr r s) (poprState_of_load hv)
  case poprSp =>
    have hstate := poprState_of_load (r := 7) hv
    rw [setGpr_setGpr_same] at hstate
    exact exec_next_of_ok (hpopr 7 s) hstate
  case popRejected =>
    obtain ⟨hcheck, hdest⟩ := pop_eq_write s (popShape_ne_flags hs hflags) (nextIp s [a])
    exact abandons_of_error (hpop a s) ((popState_of_load hs (hcheck.trans hw) hv (hdest.trans hd)).trans (put_of_error hc))
  case pushFault => exact abandons_of_error (hpush a s) (pushState_of_raises h)
  case pushrFault => exact abandons_of_error (hpushr r s) (pushrState_of_raises h)
  case popFault =>
    obtain ⟨hcheck, hdest⟩ := pop_eq_write s (popShape_ne_flags hs hflags) (nextIp s [a])
    exact abandons_of_error (hpop a s) (popState_of_raises hs (hcheck ▸ hdest ▸ h))
  case popFlagsFault =>
    have hload := (raises_cons _ [attempt (popDest s (nextIp s [.reg .b64 17]) (.reg .b64 17))] _).2 (.inl (raises_singleton.1 h))
    exact abandons_of_error (hpop _ s) (popState_of_raises rfl ((raises_cons _ _ _).2 (.inr ⟨rfl, hload⟩)))
  case poprFault => exact abandons_of_error (hpopr r s) (poprState_of_raises h)

/-! ### Register images (41 R300) -/

theorem imageOf_cons (v : Word) (vs : List Word) : imageOf (v :: vs) = bytesLE 8 v.toNat ++ imageOf vs := rfl

@[simp] theorem imageOf_length (vs : List Word) : (imageOf vs).length = 8 * vs.length := by
  induction vs with
  | nil => rfl
  | cons v vs ih => rw [imageOf_cons, List.length_append, bytesLE_length, ih, List.length_cons]; omega

theorem slotOf_drop (image : List Byte) (i : Nat) : slotOf (image.drop 8) i = slotOf image (i + 1) := by
  rw [slotOf, slotOf, List.drop_drop, Nat.mul_succ, Nat.add_comm]

/-- The first eight bytes are those of slot 0. -/
theorem take_eq_bytesLE_slot {image : List Byte} (h : 8 ≤ image.length) : image.take 8 = bytesLE 8 (slotOf image 0).toNat := by
  have hlen : (image.take 8).length = 8 := by rw [List.length_take, Nat.min_eq_left h]
  have hlt : valueLE (image.take 8) < 2 ^ 64 := by simpa [hlen] using valueLE_lt (image.take 8)
  have hback := bytesLE_valueLE (image.take 8)
  rw [hlen] at hback
  rw [slotOf, Nat.mul_zero, List.drop_zero, BitVec.toNat_ofNat, Nat.mod_eq_of_lt hlt, hback]

/-- An image is determined by its slots. -/
theorem eq_imageOf {vs : List Word} : ∀ {image : List Byte}, image.length = 8 * vs.length →
    (∀ (i : Nat) (h : i < vs.length), slotOf image i = vs[i]) → image = imageOf vs := by
  induction vs with
  | nil => exact fun hlen _ => List.length_eq_zero_iff.1 hlen
  | cons v vs ih =>
    intro image hlen hslot
    rw [List.length_cons] at hlen
    have hfirst : image.take 8 = bytesLE 8 v.toNat := by
      rw [take_eq_bytesLE_slot (by omega), hslot 0 (Nat.zero_lt_succ _), List.getElem_cons_zero]
    have hrest : image.drop 8 = imageOf vs := by
      refine ih (by rw [List.length_drop]; omega) fun i hi => ?_
      rw [slotOf_drop, hslot (i + 1) (Nat.succ_lt_succ hi), List.getElem_cons_succ]
    rw [imageOf_cons, ← hfirst, ← hrest, List.take_append_drop]

theorem gprImage_length (s : State) : (gprImage s).length = 128 := by
  rw [gprImage, imageOf_length, Vector.length_toList]

theorem programImage_length (s : State) (next : Word) : (programImage s next).length = 256 := by
  rw [programImage, imageOf_length, List.length_map, List.length_range]

/-- The image of r0..r15, by its slots (41 R302). -/
theorem eq_gprImage {s : State} {image : List Byte} (hlen : image.length = 128) (hslot : ∀ i : Fin 16, slotOf image i.val = s.gpr[i]) :
    image = gprImage s := by
  have hvalues : s.gpr.toList.length = 16 := Vector.length_toList
  refine eq_imageOf (by rw [hvalues, hlen]) fun i hi => ?_
  rw [Vector.getElem_toList]
  exact hslot ⟨i, hvalues ▸ hi⟩

/-- The image of registers 0..31, by its slots: `ip` as `next`, reserved registers as 0 (41 R303). -/
theorem eq_programImage {s : State} {image : List Byte} {next : Word} (hlen : image.length = 256)
    (hgpr : ∀ i : Fin 16, slotOf image i.val = s.gpr[i]) (hip : slotOf image 16 = next) (hflags : slotOf image 17 = s.flags)
    (hmode : slotOf image 18 = s.mode) (hreserved : ∀ i, 19 ≤ i → i < 32 → slotOf image i = 0) : image = programImage s next := by
  have hvalues : ((List.range 32).map (readReg s next)).length = 32 := by rw [List.length_map, List.length_range]
  refine eq_imageOf (by rw [hvalues, hlen]) fun i hi => ?_
  rw [List.getElem_map, List.getElem_range]
  rw [hvalues] at hi
  by_cases hlow : i < 16
  · rw [readReg_gpr s next ⟨i, hlow⟩, ← hgpr ⟨i, hlow⟩]
  by_cases hhigh : 19 ≤ i
  · rw [hreserved i hhigh hi]
    interval_cases i <;> rfl
  · obtain rfl | rfl | rfl : i = 16 ∨ i = 17 ∨ i = 18 := by omega
    · exact hip
    · exact hflags
    · exact hmode

/-! ### Bulk stores (41 R302, R303, R306, R307) -/

section
variable {s : State} {a : Operand} {image : List Byte} {n : Nat} {ps : List Nat} {t : Trap}

theorem storeImage_of_ok (hlen : image.length = n) (ha : isMem a = true)
    (hps : translateAll s s.xm .write (addrOf s (nextIp s [a]) a) n = .ok ps) :
    storeImage a image s = .ok { s with mem := s.mem.writeBytes ps image, ip := nextIp s [a] } := by
  rw [storeImage, ha, require_true, bind_ok, hlen, hps, bind_ok]

theorem storeImage_of_error (hlen : image.length = n) (ha : isMem a = true)
    (hps : translateAll s s.xm .write (addrOf s (nextIp s [a]) a) n = .error t) : storeImage a image s = .error t := by
  rw [storeImage, ha, require_true, bind_ok, hlen, hps, bind_error]

theorem pushImage_of_ok (hlen : image.length = n)
    (hps : translateAll s s.xm .write (getGpr s 7 - BitVec.ofNat 64 n) n = .ok ps) :
    pushImage image s = .ok { setGpr s 7 (getGpr s 7 - BitVec.ofNat 64 n) with
      mem := s.mem.writeBytes ps image, ip := nextAfter s 2 } := by
  rw [pushImage, hlen, hps, bind_ok]
  rfl

theorem pushImage_of_error (hlen : image.length = n)
    (hps : translateAll s s.xm .write (getGpr s 7 - BitVec.ofNat 64 n) n = .error t) : pushImage image s = .error t := by
  rw [pushImage, hlen, hps, bind_error]

end

/-- Settles O41: an image with the slots of the statement is the one the instruction stores. -/
theorem bulkStore : Obligations.BulkStore := by
  intro s a ps
  have hstogpr : exec (.stogpr a) s = finish s (storeImage a (gprImage s) s) := rfl
  have hstoar : exec (.stoar a) s = finish s (storeImage a (programImage s (nextIp s [a])) s) := rfl
  have hpushgpr : exec .pushgpr s = finish s (pushImage (gprImage s) s) := rfl
  have hpushar : exec .pushar s = finish s (pushImage (programImage s (nextAfter s 2)) s) := rfl
  have hgprs := gprImage_length s
  refine ⟨fun image hlen hslot => ?gprs, fun image next hlen hgpr hip hflags hmode hreserved => ?program,
    fun t => ⟨fun ha h => ?stogprFault, fun ha h => ?stoarFault, fun h => ?pushgprFault, fun h => ?pusharFault⟩⟩
  case gprs =>
    obtain rfl := eq_gprImage hlen hslot
    exact ⟨fun ha hps => exec_next_of_ok hstogpr (storeImage_of_ok hlen ha hps),
      fun hps => exec_next_of_ok hpushgpr (pushImage_of_ok hlen hps)⟩
  case program =>
    obtain rfl := eq_programImage hlen hgpr hip hflags hmode hreserved
    refine ⟨fun ha hnext hps => ?_, fun hnext hps => ?_⟩
    · subst hnext
      exact exec_next_of_ok hstoar (storeImage_of_ok hlen ha hps)
    · subst hnext
      exact exec_next_of_ok hpushar (pushImage_of_ok hlen hps)
  case stogprFault => exact abandons_of_error hstogpr (storeImage_of_error hgprs ha h)
  case stoarFault => exact abandons_of_error hstoar (storeImage_of_error (programImage_length s _) ha h)
  case pushgprFault => exact abandons_of_error hpushgpr (pushImage_of_error hgprs h)
  case pusharFault => exact abandons_of_error hpushar (pushImage_of_error (programImage_length s _) h)

end Sys2Proof.Machine
end

section
/-!
Block operations, `in` and `out`, by themselves and behind a repeat prefix: what one operation answers and raises, and what an iteration
makes of it; O43, O44, O59.
-/

namespace Sys2Proof.Machine

/-! ### One block operation (42 R330, R335 to R339) -/

section
variable {ss : Size} {s : State} {x y r : Word} {ps : List Nat}

/-- The two address registers of `bcpy` and `bcmp` do not disturb each other (42 R330). -/
theorem advance_both (s : State) (n : Nat) :
    advance (advance s 4 n) 5 n =
      setGpr (setGpr s 4 (getGpr s 4 + BitVec.ofNat 64 n)) 5 (getGpr s 5 + BitVec.ofNat 64 n) := by
  rw [advance, advance, getGpr_setGpr_other _ _ _ _ (by decide)]

theorem bcpyOnce_of_accesses (hx : memRead s (getGpr s 4) ss.bytes = .ok x)
    (hps : translateAll s s.xm .write (getGpr s 5) ss.bytes = .ok ps) :
    bcpyOnce ss s = .ok { setGpr (setGpr s 4 (getGpr s 4 + BitVec.ofNat 64 ss.bytes)) 5 (getGpr s 5 + BitVec.ofNat 64 ss.bytes) with
      mem := s.mem.writeBytes ps (bytesLE ss.bytes x.toNat), flags := setZN s.flags x (sizeBits ss) } := by
  rw [bcpyOnce, hx, bind_ok, hps, bind_ok]
  exact congrArg Except.ok (advance_both _ ss.bytes)

theorem bstoOnce_of_store (hy : y.toNat = (getGpr s 0).toNat % 2 ^ sizeBits ss)
    (hps : translateAll s s.xm .write (getGpr s 5) ss.bytes = .ok ps) :
    bstoOnce ss s = .ok { setGpr s 5 (getGpr s 5 + BitVec.ofNat 64 ss.bytes) with
      mem := s.mem.writeBytes ps (bytesLE ss.bytes y.toNat), flags := setZN s.flags y (sizeBits ss) } := by
  rw [bstoOnce, hps, bind_ok, ← eq_trunc (sizeBits_le ss) hy]
  rfl

theorem bscaOnce_of_load (hx : memRead s (getGpr s 4) ss.bytes = .ok x) :
    bscaOnce ss s = .ok { setGpr s 0 x with flags := setZN s.flags x (sizeBits ss) } := by
  rw [bscaOnce, hx, bind_ok]

theorem bcmpOnce_of_loads (hx : memRead s (getGpr s 4) ss.bytes = .ok x) (hy : memRead s (getGpr s 5) ss.bytes = .ok y)
    (hr : AluOp.sub.ResultIs (sizeBits ss) x y r) :
    bcmpOnce ss s = .ok { setGpr (setGpr s 4 (getGpr s 4 + BitVec.ofNat 64 ss.bytes)) 5 (getGpr s 5 + BitVec.ofNat 64 ss.bytes) with
      flags := aluFlags .sub s.flags (sizeBits ss) x y r } := by
  rw [bcmpOnce, hx, bind_ok, hy, bind_ok, compareFlags_eq (sizeBits_le ss) s.flags hr]
  exact congrArg Except.ok (advance_both _ ss.bytes)

theorem btstOnce_of_load (hx : memRead s (getGpr s 4) ss.bytes = .ok x) (hy : y.toNat = (getGpr s 0).toNat % 2 ^ sizeBits ss)
    (hr : AluOp.sub.ResultIs (sizeBits ss) x y r) :
    btstOnce ss s = .ok { setGpr s 4 (getGpr s 4 + BitVec.ofNat 64 ss.bytes) with
      flags := aluFlags .sub s.flags (sizeBits ss) x y r } := by
  rw [btstOnce, hx, bind_ok, ← eq_trunc (sizeBits_le ss) hy, compareFlags_eq (sizeBits_le ss) s.flags hr]
  rfl

end

/-! ### `in` and `out` (46 R490 to R493) -/

section
variable {ss : Size} {s t : State} {x : Word} {ps : List Nat} {e : Trap}

theorem inOnce_of_supervisor (hx : s.xm = false) :
    inOnce ss s = .ok { setGpr s 0 (ioRead s (getGpr s 2) ss.bytes) with
      flags := setZNP s.flags (ioRead s (getGpr s 2) ss.bytes) (sizeBits ss) } := by
  rw [inOnce, hx, Bool.not_false, require_true, bind_ok]

/-- In supervisor mode `out` is the device write of the low bytes of r0. -/
theorem outOnce_of_supervisor (hx : s.xm = false) (hv : x.toNat = (getGpr s 0).toNat % 2 ^ sizeBits ss) :
    outOnce ss s = ioWrite s (getGpr s 2) ss.bytes x := by
  rw [outOnce, hx, Bool.not_false, require_true, bind_ok, ← eq_trunc (sizeBits_le ss) hv]

/-- A device answers as many bytes as it is asked for (46 R490). -/
theorem ioRead_lt (s : State) (a : Word) (ss : Size) : (ioRead s a ss.bytes).toNat < 2 ^ sizeBits ss := by
  rw [ioRead, ← sizeBits, trunc_toNat (sizeBits_le ss)]
  exact Nat.mod_lt _ (Nat.two_pow_pos _)

/-- Below 2^32 every address but those of the spec's devices is unassigned (46 R493, 60 R566 to R568, R570). -/
theorem deviceAt_eq_none (cfg : Params) {a : Word} (hlow : a.toNat < 2 ^ 32) (hcount : a ≠ 0xfe80)
    (hcpu : ¬ (0xff00 ≤ a.toNat ∧ a.toNat ≤ 0xffff)) (hquery : ¬ (0x7f00 ≤ a.toNat ∧ a.toNat ≤ 0x7f7f)) :
    deviceAt cfg a = .none := by
  rw [deviceAt, if_neg hlow.not_ge, if_neg hcount, if_neg (by omega), if_neg (by omega), if_neg (by omega)]

theorem ioWrite_of_none {a : Word} (h : deviceAt s.cfg a = .none) (n : Nat) (v : Word) : ioWrite s a n v = .ok s := by
  rw [ioWrite, h]

theorem ioWrite_gpr {a : Word} {n : Nat} (h : ioWrite s a n x = .ok t) : t.gpr = s.gpr := by
  rw [ioWrite_ok h]

theorem ioWrite_flags {a : Word} {n : Nat} (h : ioWrite s a n x = .ok t) : t.flags = s.flags := by
  rw [ioWrite_ok h]

theorem inRepeated_of_store (hps : translateAll s s.xm .write (getGpr s 5) ss.bytes = .ok ps) :
    inRepeated ss s = .ok { setGpr s 5 (getGpr s 5 + BitVec.ofNat 64 ss.bytes) with
      mem := s.mem.writeBytes ps (bytesLE ss.bytes (ioRead s (getGpr s 2) ss.bytes).toNat),
      flags := setZNP s.flags (ioRead s (getGpr s 2) ss.bytes) (sizeBits ss) } := by
  rw [inRepeated, hps, bind_ok]
  rfl

theorem outRepeated_of_load (hv : memRead s (getGpr s 4) ss.bytes = .ok x) (ht : ioWrite s (getGpr s 2) ss.bytes x = .ok t) :
    outRepeated ss s = .ok (setGpr t 4 (getGpr s 4 + BitVec.ofNat 64 ss.bytes)) := by
  rw [outRepeated, hv, bind_ok, ht, bind_ok, advance, getGpr_congr (ioWrite_gpr ht)]

theorem outRepeated_of_device_error (hv : memRead s (getGpr s 4) ss.bytes = .ok x)
    (he : ioWrite s (getGpr s 2) ss.bytes x = .error e) : outRepeated ss s = .error e := by
  rw [outRepeated, hv, bind_ok, he, bind_error]

end

/-! ### The loads and stores of an operation, and what they raise (30 R209, 60 R525, R526) -/

/-- The loads and stores of one operation of a follower, in order: a load at r4 or r5, a store at r5. -/
def followerAccesses (s : State) (fo : Follower) : List (Except Trap Unit) :=
  let load (r : BitVec 4) (ss : Size) := attempt (memRead s (getGpr s r) ss.bytes)
  let store (ss : Size) := attempt (translateAll s s.xm .write (getGpr s 5) ss.bytes)
  match fo with
  | .bcpy ss => [load 4 ss, store ss]
  | .bsto ss => [store ss]
  | .bsca ss => [load 4 ss]
  | .bcmp ss => [load 4 ss, load 5 ss]
  | .btst ss => [load 4 ss]
  | .inp ss => [store ss]
  | .outp ss => [load 4 ss]
  | .invalid _ => []

/-- An operation raises what the first of its accesses that fails raises. -/
theorem followerOnce_of_raises {s : State} {fo : Follower} {t : Trap} (h : Raises (followerAccesses s fo) t) :
    followerOnce fo s = .error t := by
  have hlast : ¬ Raises [] t := raises_nil t
  cases fo with
  | bcpy ss | bcmp ss => exact raises_bind h fun _ _ h => raises_bind h fun _ _ h => absurd h hlast
  | bsto ss | bsca ss | btst ss | inp ss | outp ss => exact raises_bind h fun _ _ h => absurd h hlast
  | invalid w => exact absurd h hlast

/-- No operation of a follower writes r1, which counts the iterations (42 R333). -/
theorem followerOnce_counter {s u : State} {fo : Follower} (h : followerOnce fo s = .ok u) : getGpr u 1 = getGpr s 1 := by
  have hother (t : State) {r : BitVec 4} (hr : 1 ≠ r) (v : Word) : getGpr (setGpr t r v) 1 = getGpr t 1 :=
    getGpr_setGpr_other t r 1 v hr
  cases fo with
  | bcpy ss =>
    simp only [followerOnce, bcpyOnce, bind_ok_iff, Except.ok.injEq] at h
    obtain ⟨v, -, ps, -, rfl⟩ := h
    exact (hother _ (by decide) _).trans (hother _ (by decide) _)
  | bsto ss =>
    simp only [followerOnce, bstoOnce, bind_ok_iff, Except.ok.injEq] at h
    obtain ⟨ps, -, rfl⟩ := h
    exact hother _ (by decide) _
  | bsca ss =>
    simp only [followerOnce, bscaOnce, bind_ok_iff, Except.ok.injEq] at h
    obtain ⟨v, -, rfl⟩ := h
    exact hother s (by decide) v
  | bcmp ss =>
    simp only [followerOnce, bcmpOnce, bind_ok_iff, Except.ok.injEq] at h
    obtain ⟨v, -, w, -, rfl⟩ := h
    exact (hother _ (by decide) _).trans (hother _ (by decide) _)
  | btst ss =>
    simp only [followerOnce, btstOnce, bind_ok_iff, Except.ok.injEq] at h
    obtain ⟨v, -, rfl⟩ := h
    exact hother _ (by decide) _
  | inp ss =>
    simp only [followerOnce, inRepeated, bind_ok_iff, Except.ok.injEq] at h
    obtain ⟨ps, -, rfl⟩ := h
    exact hother _ (by decide) _
  | outp ss =>
    simp only [followerOnce, outRepeated, bind_ok_iff, Except.ok.injEq] at h
    obtain ⟨v, -, t, ht, rfl⟩ := h
    exact (hother t (by decide) _).trans (getGpr_congr (ioWrite_gpr ht) 1)
  | invalid w => cases h

/-! ### An operation by itself, and behind a prefix (42 R331 to R333) -/

section
variable {s u : State} {t : Trap}

/-- An instruction that is one operation goes on to the next instruction. -/
theorem exec_next_of_once {i : Instr} {o : Except Trap State} (hexec : exec i s = finish s (thenNext s o)) (ho : o = .ok u) :
    exec i s = .next { u with ip := s.ip + 2 } :=
  exec_next_of_ok hexec (by rw [ho]; rfl)

theorem abandons_of_once {i : Instr} {o : Except Trap State} (hexec : exec i s = finish s (thenNext s o)) (ho : o = .error t) :
    Abandons i s t :=
  abandons_of_error hexec (by rw [ho]; rfl)

/-- In supervisor mode a prefix accepts `in` and `out` (46 R492). -/
theorem followerCheck_of_supervisor (hx : s.xm = false) (ss : Size) :
    followerCheck s (.inp ss) = .ok () ∧ followerCheck s (.outp ss) = .ok () := by
  rw [followerCheck, followerCheck, hx]
  exact ⟨rfl, rfl⟩

variable {fo : Follower} (hc : followerCheck s fo = .ok ())
include hc

/-- Where `repbc` does not skip, it does one operation, then lowers r1 (42 R333). -/
theorem repbcState_of_entry (cc : Cond) (hentry : getGpr s 1 ≠ 0 ∨ s.cfg.repbcZeroEntry = .onceAndWrap) :
    repbcState cc fo s = (do
      let t ← followerOnce fo s
      let u := setGpr t 1 (getGpr t 1 - 1)
      .ok (afterIteration s u (condHolds cc u.flags || getGpr u 1 == 0))) := by
  have hgo : ¬ (getGpr s 1 = 0 ∧ s.cfg.repbcZeroEntry = .skip) := by
    rintro ⟨hzero, hskip⟩
    obtain h | h := hentry
    · exact h hzero
    · cases h.symm.trans hskip
  rw [repbcState, hc, bind_ok, if_neg hgo]

theorem exec_repbc_skip (cc : Cond) (hzero : getGpr s 1 = 0) (hskip : s.cfg.repbcZeroEntry = .skip) :
    exec (.repbc cc fo) s = .next { s with ip := s.ip + 4 } := by
  refine exec_next_of_ok (r := repbcState cc fo s) rfl ?_
  rw [repbcState, hc, bind_ok, if_pos ⟨hzero, hskip⟩]
  rfl

/-- One iteration whose operation answers `u`: the stop test goes by the flags that the operation leaves. -/
theorem exec_prefix_next (cc : Cond) (hu : followerOnce fo s = .ok u) {fl : Word} (hfl : u.flags = fl) :
    exec (.repbi cc fo) s = .next { u with ip := if condHolds cc fl then s.ip + 4 else s.ip } ∧
      ((getGpr s 1 ≠ 0 ∨ s.cfg.repbcZeroEntry = .onceAndWrap) →
        exec (.repbc cc fo) s = .next { setGpr u 1 (getGpr s 1 - 1) with
          ip := if condHolds cc fl = true ∨ getGpr s 1 = 1 then s.ip + 4 else s.ip }) := by
  subst hfl
  refine ⟨exec_next_of_ok (r := repbiState cc fo s) rfl ?_, fun hentry => exec_next_of_ok (r := repbcState cc fo s) rfl ?_⟩
  · rw [repbiState, hc, bind_ok, hu, bind_ok]
    rfl
  · have hstop : (condHolds cc u.flags || getGpr s 1 - 1 == 0) = true ↔ condHolds cc u.flags = true ∨ getGpr s 1 = 1 := by
      rw [Bool.or_eq_true, beq_iff_eq, sub_eq_zero]
    rw [repbcState_of_entry hc cc hentry, hu, bind_ok, followerOnce_counter hu]
    simp only [getGpr_setGpr_same, setGpr_flags, afterIteration, hstop]
    rfl

/-- An iteration whose operation raises `t`. -/
theorem exec_prefix_abandons (cc : Cond) (ht : followerOnce fo s = .error t) :
    Abandons (.repbi cc fo) s t ∧
      ((getGpr s 1 ≠ 0 ∨ s.cfg.repbcZeroEntry = .onceAndWrap) → Abandons (.repbc cc fo) s t) := by
  refine ⟨abandons_of_error (r := repbiState cc fo s) rfl ?_, fun hentry => abandons_of_error (r := repbcState cc fo s) rfl ?_⟩
  · rw [repbiState, hc, bind_ok, ht, bind_error]
  · rw [repbcState_of_entry hc cc hentry, ht, bind_error]

end

/-- Settles O43: each instruction is one operation of its follower. -/
theorem blockResult : Obligations.BlockResult := by
  intro s ss x y ps
  refine ⟨fun hx hps => ?bcpy, fun hy hps => ?bsto, fun hx => ?bsca, fun hx hy r hr => ?bcmp, fun hx hy r hr => ?btst,
    fun t p hp h => ?raised⟩
  case bcpy => exact ⟨_, exec_next_of_once rfl (bcpyOnce_of_accesses hx hps), setZN_znOf .., setZN_keeps ..⟩
  case bsto => exact ⟨_, exec_next_of_once rfl (bstoOnce_of_store hy hps), setZN_znOf .., setZN_keeps ..⟩
  case bsca =>
    have hnext := exec_next_of_once (i := .bsca ss) rfl (bscaOnce_of_load hx)
    exact ⟨_, hnext, setZN_znOf .., setZN_keeps ..⟩
  case bcmp => exact exec_next_of_once rfl (bcmpOnce_of_loads hx hy hr)
  case btst => exact exec_next_of_once rfl (btstOnce_of_load hx hy hr)
  case raised =>
    have hfollower : ∃ fo, p.2 = followerAccesses s fo ∧ exec p.1 s = finish s (thenNext s (followerOnce fo s)) := by
      fin_cases hp
      exacts [⟨.bcpy ss, rfl, rfl⟩, ⟨.bsto ss, rfl, rfl⟩, ⟨.bsca ss, rfl, rfl⟩, ⟨.bcmp ss, rfl, rfl⟩, ⟨.btst ss, rfl, rfl⟩]
    obtain ⟨fo, haccesses, hexec⟩ := hfollower
    exact abandons_of_once hexec (followerOnce_of_raises (haccesses ▸ h))

/-- Settles O44: an iteration is the operation that the instruction alone does, whose accesses are the follower's. -/
theorem repeatIteration : Obligations.RepeatIteration := by
  intro s cc ss
  refine ⟨fun p hp haccess => ?iteration, fun hzero hskip fo hfo => ?skip, fun t p hp h => ?raised⟩
  case iteration =>
    have honce : followerCheck s p.1 = .ok () ∧ exec p.2.1 s = finish s (thenNext s (followerOnce p.1 s)) ∧
        ∃ u, followerOnce p.1 s = .ok u := by
      fin_cases hp
      · obtain ⟨⟨x, hx⟩, ps, hps⟩ := haccess
        exact ⟨rfl, rfl, _, bcpyOnce_of_accesses hx hps⟩
      · obtain ⟨ps, hps⟩ := haccess
        exact ⟨rfl, rfl, _, bstoOnce_of_store (trunc_toNat (sizeBits_le ss) _) hps⟩
      · obtain ⟨x, hx⟩ := haccess
        exact ⟨rfl, rfl, _, bscaOnce_of_load hx⟩
      · obtain ⟨⟨x, hx⟩, y, hy⟩ := haccess
        exact ⟨rfl, rfl, _, bcmpOnce_of_loads hx hy ((resultIs_iff (sizeBits_le ss) ..).2 rfl)⟩
      · obtain ⟨x, hx⟩ := haccess
        exact ⟨rfl, rfl, _, btstOnce_of_load hx (trunc_toNat (sizeBits_le ss) _) ((resultIs_iff (sizeBits_le ss) ..).2 rfl)⟩
    obtain ⟨hc, hexec, u, hu⟩ := honce
    exact ⟨u, exec_next_of_once hexec hu, exec_prefix_next hc cc hu rfl⟩
  case skip =>
    have hc : followerCheck s fo = .ok () := by fin_cases hfo <;> rfl
    exact exec_repbc_skip hc cc hzero hskip
  case raised =>
    have hfollower : followerCheck s p.1 = .ok () ∧ p.2 = followerAccesses s p.1 := by fin_cases hp <;> exact ⟨rfl, rfl⟩
    obtain ⟨hc, haccesses⟩ := hfollower
    exact exec_prefix_abandons hc cc (followerOnce_of_raises (haccesses ▸ h))

/-- Settles O59: by themselves both are an access to a device; a prefix puts memory in the place of r0. -/
theorem inOutResult : Obligations.InOutResult := by
  intro s t ss x ps cc hx
  obtain ⟨hin, hout⟩ := followerCheck_of_supervisor hx ss
  have houtp : exec (.outp ss) s = finish s (thenNext s (outOnce ss s)) := rfl
  refine ⟨exec_next_of_once rfl (inOnce_of_supervisor hx), ioRead_lt s _ ss, fun hv ht => ?outp,
    fun hlow hcount hcpu hquery => ?unassigned, fun hps => ?repeatedIn, fun hv ht => ?repeatedOut,
    fun hzero hskip => ⟨exec_repbc_skip hin cc hzero hskip, exec_repbc_skip hout cc hzero hskip⟩,
    fun f hv he => ?outpFault, fun f he => ?repeatedInFault, fun f he => ?repeatedOutFault⟩
  case outp => exact exec_next_of_once houtp ((outOnce_of_supervisor hx hv).trans ht)
  case unassigned =>
    have hnone := ioWrite_of_none (deviceAt_eq_none s.cfg hlow hcount hcpu hquery) ss.bytes (trunc (sizeBits ss) (getGpr s 0))
    exact exec_next_of_once houtp ((outOnce_of_supervisor hx (trunc_toNat (sizeBits_le ss) _)).trans hnone)
  case repeatedIn =>
    rw [← hx] at hps
    exact exec_prefix_next hin cc (inRepeated_of_store hps) rfl
  case repeatedOut => exact exec_prefix_next hout cc (outRepeated_of_load hv ht) ((setGpr_flags ..).trans (ioWrite_flags ht))
  case outpFault => exact abandons_of_once houtp ((outOnce_of_supervisor hx hv).trans he)
  case repeatedInFault =>
    rw [← hx] at he
    exact exec_prefix_abandons hin cc (followerOnce_of_raises (raises_singleton.2 ((attempt_error_iff _ f).2 he)))
  case repeatedOutFault =>
    obtain he | ⟨hv, he⟩ := he
    · exact exec_prefix_abandons hout cc (followerOnce_of_raises (raises_singleton.2 ((attempt_error_iff _ f).2 he)))
    · exact exec_prefix_abandons hout cc (outRepeated_of_device_error hv he)

end Sys2Proof.Machine
end

section
/-!
The sizes of the shifts, and the equivalence of the closed forms and the iterated steps at each of them; O45.
-/

namespace Sys2Proof.Machine

/-- Each operand size has a top bit and fits in a word: what the bits of a shift need of `d` (43 R351). -/
theorem shiftSize_bounds : ∀ d ∈ [8, 16, 32, 64], 0 < d ∧ d ≤ 64 := by decide

/-- Settles O45: for every count, the closed form and the iterated steps have the same bits and move the same bit out
(`apply_eq_iterate`, by induction on the count). -/
theorem shiftIsIteration : Obligations.ShiftIsIteration := by
  intro op d a c c0 hsize ha
  obtain ⟨hpos, hword⟩ := shiftSize_bounds d hsize
  exact apply_eq_iterate hpos hword c0 ha op c

end Sys2Proof.Machine
end

section
/-!
The exchange and compare-exchange instructions: what their operations answer and raise; O49.
-/

namespace Sys2Proof.Machine

/-! ### Two operands that are both read and written (44 R402, R403) -/

/-- The operands `a` and `b` may be exchanged: they read as `x` and `y`, and their writes go to `da` and `db`. -/
structure Exchangeable (s : State) (next : Word) (a b : Operand) (x y : Word) (da db : Dest) : Prop where
  shape : xchgShape a b = true
  fst_reads : Reads s next a x
  snd_reads : Reads s next b y
  fst_writable : opWriteCheck s a = .ok ()
  snd_writable : opWriteCheck s b = .ok ()
  fst_dest : destOf s next a = .ok da
  snd_dest : destOf s next b = .ok db

/-- An operand that reads and can be written passes the check of an update (30 R209 step 7). -/
theorem Reads.updateCheck {s : State} {next x : Word} {a : Operand} (hr : Reads s next a x) (hw : opWriteCheck s a = .ok ()) :
    opUpdateCheck s a = .ok () :=
  (opUpdateCheck_ok_iff s a ()).2 ⟨hr.1, hw⟩

/-! ### `xchg` (44 R402) -/

section
variable {s : State} {a b : Operand} {x y : Word} {da db : Dest} {t : Trap}

/-- With both operands read, what is left is the checks of the two values, the first operand's before the second's. -/
theorem xchgState_of_exchangeable (h : Exchangeable s (nextIp s [a, b]) a b x y da db) :
    xchgState a b s = (do
      destCheck s da y
      destCheck s db x
      .ok { putDest (putDest s da y) db x with ip := nextIp s [a, b] }) := by
  obtain ⟨hs, hx, hy, hwa, hwb, hda, hdb⟩ := h
  rw [xchgState, hs, require_true, bind_ok, hx.updateCheck hwa, bind_ok, hy.updateCheck hwb, bind_ok, hx.2, bind_ok, hy.2, bind_ok,
    hda, bind_ok, hdb, bind_ok]

theorem xchgState_of_raises (hs : xchgShape a b = true)
    (h : Raises [opUpdateCheck s a, opUpdateCheck s b, attempt (loadOp s (nextIp s [a, b]) a), attempt (loadOp s (nextIp s [a, b]) b),
      attempt (destOf s (nextIp s [a, b]) a), attempt (destOf s (nextIp s [a, b]) b)] t) : xchgState a b s = .error t := by
  rw [xchgState, hs, require_true, bind_ok]
  exact raises_bind_check h fun h => raises_bind_check h fun h => raises_bind h fun _ _ h => raises_bind h fun _ _ h =>
    raises_bind h fun _ _ h => raises_bind h fun _ _ h => absurd h (raises_nil t)

/-- A value refused, by the first operand or, after it, by the second. -/
theorem xchgState_of_value_error (h : Exchangeable s (nextIp s [a, b]) a b x y da db)
    (hc : destCheck s da y = .error t ∨ destCheck s da y = .ok () ∧ destCheck s db x = .error t) : xchgState a b s = .error t := by
  rw [xchgState_of_exchangeable h]
  obtain hc | ⟨hca, hcb⟩ := hc
  · rw [hc, bind_error]
  · rw [hca, bind_ok, put_of_error hcb]

end

/-! ### `cmpxchg` and `wcmpxchg` (44 R403, R404) -/

/-- How a compare-exchange ends: the value is checked and written, and Z tells whether the exchange was made. -/
def putCompared (s : State) (next : Word) (dst : Dest) (v : Word) (exchanged : Bool) : Except Trap State := do
  destCheck s dst v
  .ok { putDest s dst v with flags := setBit s.flags 1 exchanged, ip := next }

section
variable {fail : Bool} {s : State} {a b c : Operand} {x e n : Word} {da db : Dest} {t : Trap}

/-- With the operands read, the comparison chooses the operand that is written: the first one gets the new value, or the second one
what the first one holds. -/
theorem cmpxchgState_of_exchangeable (h : Exchangeable s (nextIp s [a, b, c]) a b x e da db) (hn : Reads s (nextIp s [a, b, c]) c n) :
    let equal := x == e && !fail
    cmpxchgState fail a b c s =
      putCompared s (nextIp s [a, b, c]) (if equal then da else db) (if equal then n else x) equal := by
  obtain ⟨hs, hx, he, hwa, hwb, hda, hdb⟩ := h
  rw [cmpxchgState, hs, require_true, bind_ok, hx.updateCheck hwa, bind_ok, he.updateCheck hwb, bind_ok, hn.1, bind_ok, hx.2, bind_ok,
    he.2, bind_ok, hn.2, bind_ok, hda, bind_ok, hdb, bind_ok]
  rfl

/-- Equal values, and no spurious failure: the first operand is written. -/
theorem cmpxchgState_of_equal (h : Exchangeable s (nextIp s [a, b, c]) a b x e da db) (hn : Reads s (nextIp s [a, b, c]) c n)
    (heq : x = e) :
    cmpxchgState false a b c s = putCompared s (nextIp s [a, b, c]) da n true := by
  have hequal : (x == e && !false) = true := by simp [heq]
  simpa only [hequal, if_true] using cmpxchgState_of_exchangeable (fail := false) h hn

/-- Different values, or a spurious failure: the second operand is written. -/
theorem cmpxchgState_of_differs (h : Exchangeable s (nextIp s [a, b, c]) a b x e da db) (hn : Reads s (nextIp s [a, b, c]) c n)
    (hne : x ≠ e ∨ fail = true) :
    cmpxchgState fail a b c s = putCompared s (nextIp s [a, b, c]) db x false := by
  have hequal : (x == e && !fail) = false := by
    obtain hne | rfl := hne
    · rw [beq_false_of_ne hne, Bool.false_and]
    · exact Bool.and_false _
  simpa only [hequal, if_false, Bool.false_eq_true] using cmpxchgState_of_exchangeable (fail := fail) h hn

/-- Equal values: the one or the other, as the spurious failure says. -/
theorem cmpxchgState_equal_cases (h : Exchangeable s (nextIp s [a, b, c]) a b x e da db) (hn : Reads s (nextIp s [a, b, c]) c n)
    (heq : x = e) :
    cmpxchgState fail a b c s = putCompared s (nextIp s [a, b, c]) da n true ∨
      cmpxchgState fail a b c s = putCompared s (nextIp s [a, b, c]) db x false := by
  cases fail with
  | false => exact .inl (cmpxchgState_of_equal h hn heq)
  | true => exact .inr (cmpxchgState_of_differs h hn (.inr rfl))

theorem cmpxchgState_of_raises (hs : xchgShape a b = true)
    (h : Raises [opUpdateCheck s a, opUpdateCheck s b, opReadCheck s c, attempt (loadOp s (nextIp s [a, b, c]) a),
      attempt (loadOp s (nextIp s [a, b, c]) b), attempt (loadOp s (nextIp s [a, b, c]) c),
      attempt (destOf s (nextIp s [a, b, c]) a), attempt (destOf s (nextIp s [a, b, c]) b)] t) :
    cmpxchgState fail a b c s = .error t := by
  rw [cmpxchgState, hs, require_true, bind_ok]
  exact raises_bind_check h fun h => raises_bind_check h fun h => raises_bind_check h fun h => raises_bind h fun _ _ h =>
    raises_bind h fun _ _ h => raises_bind h fun _ _ h => raises_bind h fun _ _ h => raises_bind h fun _ _ h => absurd h (raises_nil t)

end

/-- `cmpxchg` never fails spuriously; whether `wcmpxchg` does is a free value (44 R404). -/
theorem exec_cmpxchg (a b c : Operand) (s : State) : exec (.cmpxchg a b c) s = finish s (cmpxchgState false a b c s) := rfl

theorem exec_wcmpxchg (a b c : Operand) (s : State) :
    exec (.wcmpxchg a b c) s = finish s (cmpxchgState (Config.spuriousFail s.freeCtr) a b c s) := rfl

/-- Both instructions are the compare-exchange, with one value or another for the spurious failure. -/
theorem exec_compareExchange {i : Instr} {a b c : Operand} (hi : i ∈ [Instr.cmpxchg a b c, .wcmpxchg a b c]) (s : State) :
    ∃ fail, exec i s = finish s (cmpxchgState fail a b c s) := by
  simp only [List.mem_cons, List.not_mem_nil, or_false] at hi
  obtain rfl | rfl := hi
  · exact ⟨false, exec_cmpxchg a b c s⟩
  · exact ⟨Config.spuriousFail s.freeCtr, exec_wcmpxchg a b c s⟩

/-- Writing the result of a comparison to Z. -/
theorem setZ_flag (f : Word) (z : Bool) : flagZ (setBit f 1 z) = z := by
  rw [flagZ, setBit_getLsbD f (by decide), if_pos rfl]

/-- The other flags are kept. -/
theorem setZ_keeps (f : Word) (z : Bool) : KeepsFlags 0x02 f (setBit f 1 z) :=
  (KeepsFlags.refl _ f).setBit (by decide) (by decide) z

/-! ### The obligation -/

/-- Settles O49: `xchg` is `xchgState`; `cmpxchg` and `wcmpxchg` are `cmpxchgState`, which writes the first operand where the values are
equal and the comparison does not fail spuriously, and else the second. -/
theorem exchangeResult : Obligations.ExchangeResult := by
  have hxchg (a b : Operand) (s : State) : exec (.xchg a b) s = finish s (xchgState a b s) := rfl
  refine ⟨fun s a b x y da db hs hx hy ⟨hwa, hda, hca⟩ ⟨hwb, hdb, hcb⟩ => ?xchg,
    fun s a b c x e n da db hs hx he hn hwa hwb hda hdb => ?compare,
    fun s a b c t hs => ⟨fun h => ?xchgFault, fun i hi => ⟨fun h => ?compareFault,
      fun x e v da db hx he hv hwa hwb hda hdb => ?compareValue⟩⟩⟩
  case xchg =>
    refine exec_next_of_ok (hxchg a b s) ?_
    rw [xchgState_of_exchangeable ⟨hs, hx, hy, hwa, hwb, hda, hdb⟩, hca, bind_ok, put_of_ok hcb]
  case xchgFault =>
    refine abandons_of_error (hxchg a b s) ?_
    obtain h | ⟨x, y, hx, hy, ⟨⟨hwa, da, hda, hca⟩, hwb, db, hdb⟩ | ⟨da, ⟨hwa, hda, hca⟩, hwb, db, hdb, hcb⟩⟩ := h
    · exact xchgState_of_raises hs h
    · exact xchgState_of_value_error ⟨hs, hx, hy, hwa, hwb, hda, hdb⟩ (.inl hca)
    · exact xchgState_of_value_error ⟨hs, hx, hy, hwa, hwb, hda, hdb⟩ (.inr ⟨hca, hcb⟩)
  case compare =>
    have hops : Exchangeable s (nextIp s [a, b, c]) a b x e da db := ⟨hs, hx, he, hwa, hwb, hda, hdb⟩
    refine ⟨setBit s.flags 1 true, setBit s.flags 1 false, setZ_flag .., setZ_keeps .., setZ_flag .., setZ_keeps ..,
      fun heq hc => ?equal, fun hne hc => ⟨?differs, ?weakDiffers⟩, fun heq hca hcb => ?weakEqual⟩
    case equal => exact exec_next_of_ok (exec_cmpxchg a b c s) ((cmpxchgState_of_equal hops hn heq).trans (put_of_ok hc))
    case differs => exact exec_next_of_ok (exec_cmpxchg a b c s) ((cmpxchgState_of_differs hops hn (.inl hne)).trans (put_of_ok hc))
    case weakDiffers =>
      exact exec_next_of_ok (exec_wcmpxchg a b c s) ((cmpxchgState_of_differs hops hn (.inl hne)).trans (put_of_ok hc))
    case weakEqual =>
      obtain hput | hput := cmpxchgState_equal_cases hops hn heq
      · exact .inl (exec_next_of_ok (exec_wcmpxchg a b c s) (hput.trans (put_of_ok hca)))
      · exact .inr (exec_next_of_ok (exec_wcmpxchg a b c s) (hput.trans (put_of_ok hcb)))
  case compareFault =>
    obtain ⟨fail, hexec⟩ := exec_compareExchange hi s
    exact abandons_of_error hexec (cmpxchgState_of_raises hs h)
  case compareValue =>
    have hops : Exchangeable s (nextIp s [a, b, c]) a b x e da db := ⟨hs, hx, he, hwa, hwb, hda, hdb⟩
    refine ⟨fun hne hc => ?differs, fun heq hca => ⟨?equal, fun hcb => ?weakEqual⟩⟩
    case differs =>
      obtain ⟨fail, hexec⟩ := exec_compareExchange hi s
      exact abandons_of_error hexec ((cmpxchgState_of_differs hops hv (.inl hne)).trans (put_of_error hc))
    case equal => exact abandons_of_error (exec_cmpxchg a b c s) ((cmpxchgState_of_equal hops hv heq).trans (put_of_error hca))
    case weakEqual =>
      obtain hput | hput := cmpxchgState_equal_cases hops hv heq
      · exact abandons_of_error (exec_wcmpxchg a b c s) (hput.trans (put_of_error hca))
      · exact abandons_of_error (exec_wcmpxchg a b c s) (hput.trans (put_of_error hcb))

end Sys2Proof.Machine
end

section
/-!
Branches: the condition codes and their negation, and what the check of a target raises; O31, O50.
-/

namespace Sys2Proof

/-! ### Condition codes (45 R425) -/

/-- The condition that holds exactly when `cc` does not (45 R425); tied to the model by `Machine.condHolds_negate`. -/
def Cond.negate : Cond → Cond
  | .p => .np
  | .c => .nc
  | .v => .nv
  | .z => .nz
  | .lt => .ge
  | .le => .gt
  | .be => .a
  | .mi => .pl
  | .pl => .mi
  | .a => .be
  | .gt => .le
  | .ge => .lt
  | .nz => .z
  | .nv => .v
  | .nc => .c
  | .np => .p

/-- The codes of a condition and of its negation add up to 15: a fact of the sixteen codes alone. -/
theorem Cond.ofCode_fifteen_sub : ∀ c : BitVec 4, Cond.ofCode (15 - c) = (Cond.ofCode c).negate := by decide

end Sys2Proof

namespace Sys2Proof.Machine

/-- A negated condition has the opposite answer: a pair either differs by one negation, which a second one cancels, or is related by
De Morgan's laws (`be` and `a`, `le` and `gt`). -/
theorem condHolds_negate (cc : Cond) (f : Word) : condHolds cc.negate f = !condHolds cc f := by
  cases cc with
  | p | c | v | z | mi | ge => rfl
  | np | nc | nv | nz | pl | lt => exact (Bool.not_not _).symm
  | be => exact (Bool.not_or _ _).symm
  | a => simp only [Cond.negate, condHolds, Bool.not_and, Bool.not_not]
  | le => simp only [Cond.negate, condHolds, bne, Bool.not_or, Bool.not_not]
  | gt => simp only [Cond.negate, condHolds, bne, Bool.not_and, Bool.not_not]

/-- Settles O31: each row of the table is the model's own, and the negation goes through `Cond.negate`, on codes and on flags. -/
theorem conditionCodes : Obligations.ConditionCodes := by
  intro f C Z V N P
  refine ⟨?table, fun c => ?negation⟩
  case table =>
    simp only [List.forall_mem_cons, List.not_mem_nil, false_implies, implies_true, and_true]
    exact ⟨rfl, rfl, rfl, rfl, rfl, rfl, rfl, rfl, rfl, rfl, rfl, rfl, rfl, rfl, rfl, rfl⟩
  case negation => rw [Cond.ofCode_fifteen_sub, condHolds_negate]

/-! ### The check of a target (45 R421, R422) -/

section
variable {s : State} {xm : Bool} {t : Word}

/-- Alignment is checked before the fetch. -/
theorem checkTarget_of_odd (h : t.getLsbD 0 = true) : checkTarget s xm t = .error (.exc (.xa t)) := by
  rw [checkTarget, h, Bool.not_true, require_false, bind_error]

/-- An even target raises what a fetch there raises, with the page tables as they are in memory. -/
theorem checkTarget_of_fetch_error {e : Trap} (h : t.getLsbD 0 = false) (hf : translate (flushPages s) xm .fetch t = .error e) :
    checkTarget s xm t = .error e := by
  rw [checkTarget, h, Bool.not_false, require_true, bind_ok, hf, bind_error]

end

/-- Settles O50: `branchTo` is the state described, the walk of the check is that of `flushPages s`, and alignment is checked first. -/
theorem takenBranch : Obligations.TakenBranch := fun s xm t =>
  ⟨rfl, checkTarget_of_odd, fun _ heven hf => checkTarget_of_fetch_error heven hf,
    fun p heven hf => (checkTarget_ok_iff s xm t ()).2 ⟨heven, p, hf⟩⟩

end Sys2Proof.Machine
end

section
/-!
The slots of an image that is stored, and the store of all registers; O57.
-/

namespace Sys2Proof.Machine

/-! ### The slots of an image (41 R300, 46 R501) -/

/-- The slots of the image of some values are these values. -/
theorem slotOf_imageOf {vs : List Word} : ∀ {i : Nat} (h : i < vs.length), slotOf (imageOf vs) i = vs[i] := by
  induction vs with
  | nil => exact fun h => absurd h (Nat.not_lt_zero _)
  | cons v vs ih =>
    intro i h
    have hlen : (bytesLE 8 v.toNat).length = 8 := bytesLE_length 8 _
    rw [imageOf_cons]
    cases i with
    | zero => rw [slotOf, Nat.mul_zero, List.drop_zero, List.take_left' hlen, ofNat_valueLE_bytesLE 8 (by decide), List.getElem_cons_zero]
    | succ i => rw [← slotOf_drop, List.drop_left' hlen, ih (Nat.lt_of_succ_lt_succ h), List.getElem_cons_succ]

/-- The slots of an image that lists the values of a function. -/
theorem slotOf_imageOf_range (f : Nat → Word) {n i : Nat} (h : i < n) : slotOf (imageOf ((List.range n).map f)) i = f i := by
  rw [slotOf_imageOf (by rwa [List.length_map, List.length_range]), List.getElem_map, List.getElem_range]

theorem fullImage_length (s : State) (next : Word) : (fullImage s next).length = 512 := by
  rw [fullImage, imageOf_length, List.length_map, List.length_range]

/-- A slot of the 512-byte image holds the register that 46 R501 assigns to it. -/
theorem slotOf_fullImage (s : State) (next : Word) {i : Nat} (h : i < 64) :
    slotOf (fullImage s next) i = readReg s next (slotRegister i) :=
  slotOf_imageOf_range (fun i => readReg s next (slotRegister i)) h

/-- The registers of the slots that 46 R501 reserves read 0. -/
theorem readReg_of_reserved_slot (s : State) (next : Word) {i : Nat}
    (h : (19 ≤ i ∧ i ≤ 31) ∨ i = 50 ∨ i = 51 ∨ (59 ≤ i ∧ i ≤ 63)) :
    readReg s next (slotRegister i) = 0 := by
  obtain ⟨_, _⟩ | rfl | rfl | ⟨_, _⟩ := h
  · interval_cases i <;> rfl
  · rfl
  · rfl
  · interval_cases i <;> rfl

/-! ### The store of all registers (46 R499) -/

theorem exec_storegf {s : State} {a : Operand} (hx : s.xm = false) (ha : isMem a = true) :
    exec (.storegf a) s = finish s (do
      let ps ← translateAll s s.xm .write (addrOf s (nextIp s [a]) a) 512
      .ok { s with mem := s.mem.writeBytes ps (fullImage s (nextIp s [a])), ip := nextIp s [a] }) := by
  show finish s (storegfState a s) = _
  rw [storegfState, supervisorOnly_of_supervisor hx, bind_ok, ha, require_true, bind_ok]

/-- Settles O57: the image is `fullImage`, whose slots are told by `slotOf_fullImage`. -/
theorem storeAllRegisters : Obligations.StoreAllRegisters := by
  intro s a hx ha
  have hexec := exec_storegf hx ha
  refine ⟨fun t h => abandons_of_error hexec (by rw [h, bind_error]), fun ps hps => ?_⟩
  have hslot {i : Nat} (h : i < 64) := slotOf_fullImage s (nextIp s [a]) h
  refine ⟨fullImage s (nextIp s [a]), fullImage_length s _, exec_next_of_ok hexec (by rw [hps, bind_ok]), fun n hn => ?low,
    fun n hlow hhigh => ?high, hslot (i := 16) (by decide), fun i hi => ?reserved⟩
  case low => rw [hslot (by omega), slotRegister, if_pos hn]
  case high => rw [hslot (by omega), slotRegister, if_neg (by omega), Nat.sub_add_cancel (by omega)]
  case reserved => rw [hslot (by omega), readReg_of_reserved_slot s _ hi]

end Sys2Proof.Machine
end

section
/-!
The devices by address, and what a read and a write of each does; O60.
-/

namespace Sys2Proof.Machine

/-! ### Which device stands at an address (46 R493) -/

/-- The addresses of the three devices of CPU `c`: Register Load Pointer, Control Word, cpuinfo query (60 R567, R568, R570). -/
def perCpuAddresses (c : Fin 128) : List Word :=
  [0xff00 + BitVec.ofNat 64 c.val, 0xff80 + BitVec.ofNat 64 c.val, 0x7f00 + BitVec.ofNat 64 c.val]

/-- A per-CPU address is its block's base plus the number of the CPU: the block tells the device, the place in it the CPU. -/
theorem deviceAt_perCpu (cfg : Params) {base : Word} {block : Nat} (hbase : base.toNat = 128 * block) (hlow : block < 2 ^ 25)
    (hcount : block ≠ 0xfe80 / 128) (c : Fin 128) :
    deviceAt cfg (base + BitVec.ofNat 64 c.val) =
      if block = 0xff00 / 128 then .loadPointer c
      else if block = 0xff80 / 128 then .controlWord c
      else if block = 0x7f00 / 128 then .cpuInfo c
      else .none := by
  have hc : c.val < 128 := c.isLt
  have haddr : (base + BitVec.ofNat 64 c.val).toNat = 128 * block + c.val := by
    rw [BitVec.toNat_add, BitVec.toNat_ofNat]
    omega
  generalize base + BitVec.ofNat 64 c.val = a at haddr ⊢
  have hblock : a.toNat / 128 = block := by omega
  have hcpu : deviceCpu a = c := by
    refine Fin.ext ?_
    rw [deviceCpu, BitVec.val_toFin, BitVec.extractLsb'_toNat, Nat.shiftRight_zero, haddr]
    omega
  have hne : a ≠ 0xfe80 := fun h => hcount (by rw [← hblock, h]; rfl)
  rw [deviceAt, if_neg (by omega), if_neg hne, hblock, hcpu]

section
variable (cfg : Params) (c : Fin 128)

theorem deviceAt_loadPointer : deviceAt cfg (0xff00 + BitVec.ofNat 64 c.val) = .loadPointer c := by
  rw [deviceAt_perCpu cfg (block := 0xff00 / 128) rfl (by decide) (by decide), if_pos rfl]

theorem deviceAt_controlWord : deviceAt cfg (0xff80 + BitVec.ofNat 64 c.val) = .controlWord c := by
  rw [deviceAt_perCpu cfg (block := 0xff80 / 128) rfl (by decide) (by decide), if_neg (by decide), if_pos rfl]

theorem deviceAt_cpuInfo : deviceAt cfg (0x7f00 + BitVec.ofNat 64 c.val) = .cpuInfo c := by
  rw [deviceAt_perCpu cfg (block := 0x7f00 / 128) rfl (by decide) (by decide), if_neg (by decide), if_neg (by decide), if_pos rfl]

end

theorem deviceAt_cpuCount (cfg : Params) : deviceAt cfg 0xfe80 = .cpuCount := rfl

/-- From 2^32 on the parameter says where a device stands. -/
theorem deviceAt_high (cfg : Params) {a : Word} (h : 2 ^ 32 ≤ a.toNat) :
    deviceAt cfg a = if machineDevice cfg a then .machine else .none := if_pos h

theorem machineDevice_iff (cfg : Params) (a : Word) :
    machineDevice cfg a = true ↔ ∃ r ∈ cfg.ioDevices, r.base ≤ a.toNat ∧ a.toNat < r.base + r.size := by
  simp only [machineDevice, List.any_eq_true, Bool.and_eq_true, decide_eq_true_iff]

theorem machineDevice_eq_false (cfg : Params) {a : Word} (h : ∀ r ∈ cfg.ioDevices, a.toNat < r.base ∨ r.base + r.size ≤ a.toNat) :
    machineDevice cfg a = false := by
  refine Bool.eq_false_iff.2 fun hd => ?_
  obtain ⟨r, hr, hbase, hend⟩ := (machineDevice_iff cfg a).1 hd
  have houtside := h r hr
  omega

/-! ### What each device answers, and a write of one that belongs to no CPU (46 R490, R491, R493, 60 R565 to R570) -/

theorem trunc_zero (d : Nat) : trunc d 0 = 0 := by simp [trunc]

theorem trunc_word (v : Word) : trunc 64 v = v := trunc_of_lt le_rfl v.isLt

section
variable {s : State} {a : Word} {c : Fin 128}

theorem ioRead_of_none (h : deviceAt s.cfg a = .none) (n : Nat) : ioRead s a n = 0 := by
  rw [ioRead, h]
  exact trunc_zero _

theorem ioRead_of_machine (h : deviceAt s.cfg a = .machine) (n : Nat) :
    ioRead s a n = trunc (8 * n) (Config.deviceAnswer s.freeCtr a) := by
  rw [ioRead, h]
  rfl

theorem ioWrite_of_machine (h : deviceAt s.cfg a = .machine) (n : Nat) (v : Word) : ioWrite s a n v = .ok s := by
  rw [ioWrite, h]

theorem cpuPresent_iff (s : State) (c : Fin 128) : cpuPresent s c = true ↔ c.val ≤ s.cfg.otherCpus := decide_eq_true_iff

theorem cpuPresent_eq_false (h : s.cfg.otherCpus < c.val) : cpuPresent s c = false := decide_eq_false h.not_ge

/-- The number of CPUs, as 2 bytes (60 R566). -/
theorem ioRead_cpuCount (s : State) : ioRead s 0xfe80 2 = BitVec.ofNat 64 ((s.cfg.otherCpus + 1) % 2 ^ 16) := by
  have hread : ioRead s 0xfe80 2 = trunc 16 (BitVec.ofNat 64 (s.cfg.otherCpus + 1)) := by
    rw [ioRead, deviceAt_cpuCount]
    rfl
  refine hread.trans (eq_trunc (by decide) ?_).symm
  rw [BitVec.toNat_ofNat, BitVec.toNat_ofNat]
  omega

theorem ioWrite_cpuCount (s : State) (n : Nat) (v : Word) : ioWrite s 0xfe80 n v = .error (.stop .cpuCountWrite) := by
  rw [ioWrite, deviceAt_cpuCount]

/-- The devices of an absent CPU read 0 (60 R565). -/
theorem ioRead_absent (h : s.cfg.otherCpus < c.val) (ha : a ∈ perCpuAddresses c) (n : Nat) : ioRead s a n = 0 := by
  have habsent := cpuPresent_eq_false h
  have hdevice : deviceAt s.cfg a = .loadPointer c ∨ deviceAt s.cfg a = .controlWord c ∨ deviceAt s.cfg a = .cpuInfo c := by
    fin_cases ha
    exacts [.inl (deviceAt_loadPointer _ c), .inr (.inl (deviceAt_controlWord _ c)), .inr (.inr (deviceAt_cpuInfo _ c))]
  rw [ioRead]
  obtain h | h | h := hdevice <;> simp only [h, habsent, trunc_zero, Bool.false_eq_true, if_false]

theorem ioRead_loadPointer (h : c.val ≤ s.cfg.otherCpus) : ioRead s (0xff00 + BitVec.ofNat 64 c.val) 8 = s.rlp[c] := by
  simp only [ioRead, deviceAt_loadPointer, (cpuPresent_iff s c).2 h, if_true]
  exact trunc_word _

theorem ioRead_controlWord (h : c.val ≤ s.cfg.otherCpus) :
    ioRead s (0xff80 + BitVec.ofNat 64 c.val) 8 = controlWordRead s (0xff80 + BitVec.ofNat 64 c.val) c := by
  simp only [ioRead, deviceAt_controlWord, (cpuPresent_iff s c).2 h, if_true]
  exact trunc_word _

theorem controlWordRead_other (h : 0 < c.val) : controlWordRead s a c = s.cecw[c] := if_neg h.ne'

/-- CPU 0 reads as enabled (60 R568, R569). -/
theorem controlWordRead_zero_enabled (h : c.val = 0) : (controlWordRead s a c).getLsbD 0 = true := by
  rw [controlWordRead, if_pos h, BitVec.getLsbD_or, show (1#64).getLsbD 0 = true from rfl, Bool.or_true]

theorem controlWordRead_zero_reserved (h : c.val = 0) : (controlWordRead s a c).extractLsb' 8 48 = 0#48 := by
  rw [controlWordRead, if_pos h, BitVec.extractLsb'_or, BitVec.extractLsb'_and,
    show (0xff000000000000fe#64).extractLsb' 8 48 = 0#48 from rfl, show (1#64).extractLsb' 8 48 = 0#48 from rfl,
    BitVec.and_zero, BitVec.or_zero]

end

/-! ### A write of a per-CPU device (60 R565, R567, R568) -/

section
variable {s : State} {c : Fin 128} {v : Word}

/-- A CPU is active by being CPU 0 or by both bits of its Control Word (60 R568, R569). -/
theorem cpuActive_iff (s : State) (c : Fin 128) :
    cpuActive s c = true ↔ c.val = 0 ∨ (s.cecw[c].getLsbD 0 = true ∧ s.cecw[c].getLsbD 1 = true) := by
  rw [cpuActive, Bool.or_eq_true, decide_eq_true_iff, Bool.and_eq_true]
  rfl

theorem cpuActive_eq_false (h0 : 0 < c.val) (h : ¬ (s.cecw[c].getLsbD 0 = true ∧ s.cecw[c].getLsbD 1 = true)) :
    cpuActive s c = false :=
  Bool.eq_false_iff.2 fun ha => ((cpuActive_iff s c).1 ha).elim h0.ne' h

theorem writeLoadPointer_of_enabled (h : cpuActive s c = true ∨ cpuEnabled s c = true) :
    writeLoadPointer s c v = .error (.stop .activeCpuDevice) := by
  rw [writeLoadPointer, Bool.or_eq_true_iff.2 h, Bool.not_true, require_false, bind_error]

theorem writeLoadPointer_of_disabled (ha : cpuActive s c = false) (he : cpuEnabled s c = false) :
    writeLoadPointer s c v = (do
      require (physInRange s.cfg v) (.stop .loadPointerOutOfRange)
      .ok { s with rlp := s.rlp.set c.val v }) := by
  rw [writeLoadPointer, ha, he, Bool.or_false, Bool.not_false, require_true, bind_ok]

theorem writeControlWord_of_active (h : cpuActive s c = true) : writeControlWord s c v = .error (.stop .activeCpuDevice) := by
  rw [writeControlWord, h, Bool.not_true, require_false, bind_error]

/-- Active without Enable is no Control Word (60 R568). -/
theorem writeControlWord_activeOnly (ha : cpuActive s c = false) (h0 : v.getLsbD 0 = false) (h1 : v.getLsbD 1 = true) :
    writeControlWord s c v = .error (.stop .invalidControlWord) := by
  rw [writeControlWord, ha, Bool.not_false, require_true, bind_ok, h0, h1]
  rfl

/-- Enable with a reserved bit is no Control Word (60 R568). -/
theorem writeControlWord_reserved (ha : cpuActive s c = false) (h0 : v.getLsbD 0 = true) (hr : v.extractLsb' 8 48 ≠ 0#48) :
    writeControlWord s c v = .error (.stop .invalidControlWord) := by
  rw [writeControlWord, ha, Bool.not_false, require_true, bind_ok, h0, bne_iff_ne.2 hr, Bool.not_true, Bool.and_false,
    Bool.not_false, require_true, bind_ok]
  rfl

/-- A valid Control Word: the machine's own bits and enabling are refused, another one is stored (log 20). -/
theorem writeControlWord_of_valid (ha : cpuActive s c = false) (h1 : v.getLsbD 1 = false ∨ v.getLsbD 0 = true)
    (hr : v.getLsbD 0 = false ∨ v.extractLsb' 8 48 = 0#48) :
    writeControlWord s c v = (do
      require (v.extractLsb' 56 8 == 0#8) (.refuse .machineControlBits)
      require (!(v.getLsbD 0 || cpuEnabled s c)) (.refuse .cpuEnable)
      .ok { s with cecw := s.cecw.set c.val v }) := by
  have hactive : (v.getLsbD 1 && !v.getLsbD 0) = false := by
    rcases h1 with h | h <;> rw [h]
    · exact Bool.false_and _
    · exact Bool.and_false _
  have hreserved : (v.getLsbD 0 && v.extractLsb' 8 48 != 0#48) = false := by
    rcases hr with h | h <;> rw [h]
    · exact Bool.false_and _
    · exact Bool.and_false _
  rw [writeControlWord, ha, hactive, hreserved, Bool.not_false, require_true, bind_ok, require_true, bind_ok, bind_ok]

theorem writeCpuInfoQuery_of_active (h : cpuActive s c = true) : writeCpuInfoQuery s c v = .error (.stop .activeCpuDevice) := by
  rw [writeCpuInfoQuery, h, Bool.not_true, require_false, bind_error]

theorem writeCpuDevice_absent (h : s.cfg.otherCpus < c.val) (n : Nat) (k : Except Trap State) : writeCpuDevice s c n k = .ok s := by
  rw [writeCpuDevice, cpuPresent_eq_false h]
  rfl

theorem writeCpuDevice_size (h : c.val ≤ s.cfg.otherCpus) {n : Nat} (hn : n ≠ 8) (k : Except Trap State) :
    writeCpuDevice s c n k = .error (.refuse .deviceAccessSize) := by
  rw [writeCpuDevice, if_pos ((cpuPresent_iff s c).2 h), if_neg hn]

theorem writeCpuDevice_present (h : c.val ≤ s.cfg.otherCpus) (k : Except Trap State) : writeCpuDevice s c 8 k = k := by
  rw [writeCpuDevice, if_pos ((cpuPresent_iff s c).2 h), if_pos rfl]

/-- The three devices of a CPU are written by `writeCpuDevice`, and each stops by name for an active CPU. -/
theorem ioWrite_perCpu {a : Word} (ha : a ∈ perCpuAddresses c) (s : State) (n : Nat) (v : Word) :
    ∃ k, ioWrite s a n v = writeCpuDevice s c n k ∧ (cpuActive s c = true → k = .error (.stop .activeCpuDevice)) := by
  fin_cases ha
  · exact ⟨writeLoadPointer s c v, by simp only [ioWrite, deviceAt_loadPointer], fun h => writeLoadPointer_of_enabled (.inl h)⟩
  · exact ⟨writeControlWord s c v, by simp only [ioWrite, deviceAt_controlWord], writeControlWord_of_active⟩
  · exact ⟨writeCpuInfoQuery s c v, by simp only [ioWrite, deviceAt_cpuInfo], writeCpuInfoQuery_of_active⟩

theorem ioWrite_absent {a : Word} (h : s.cfg.otherCpus < c.val) (ha : a ∈ perCpuAddresses c) (n : Nat) : ioWrite s a n v = .ok s := by
  obtain ⟨k, hk, -⟩ := ioWrite_perCpu ha s n v
  rw [hk, writeCpuDevice_absent h]

theorem ioWrite_size {a : Word} {n : Nat} (h : c.val ≤ s.cfg.otherCpus) (hn : n ≠ 8) (ha : a ∈ perCpuAddresses c) :
    ioWrite s a n v = .error (.refuse .deviceAccessSize) := by
  obtain ⟨k, hk, -⟩ := ioWrite_perCpu ha s n v
  rw [hk, writeCpuDevice_size h hn]

theorem ioWrite_active {a : Word} (h : c.val ≤ s.cfg.otherCpus) (hactive : cpuActive s c = true) (ha : a ∈ perCpuAddresses c) :
    ioWrite s a 8 v = .error (.stop .activeCpuDevice) := by
  obtain ⟨k, hk, hstop⟩ := ioWrite_perCpu ha s 8 v
  rw [hk, writeCpuDevice_present h, hstop hactive]

theorem ioWrite_loadPointer (h : c.val ≤ s.cfg.otherCpus) (v : Word) :
    ioWrite s (0xff00 + BitVec.ofNat 64 c.val) 8 v = writeLoadPointer s c v := by
  simp only [ioWrite, deviceAt_loadPointer, writeCpuDevice_present h]

theorem ioWrite_controlWord (h : c.val ≤ s.cfg.otherCpus) (v : Word) :
    ioWrite s (0xff80 + BitVec.ofNat 64 c.val) 8 v = writeControlWord s c v := by
  simp only [ioWrite, deviceAt_controlWord, writeCpuDevice_present h]

theorem ioWrite_cpuInfo (h : c.val ≤ s.cfg.otherCpus) (v : Word) :
    ioWrite s (0x7f00 + BitVec.ofNat 64 c.val) 8 v = writeCpuInfoQuery s c v := by
  simp only [ioWrite, deviceAt_cpuInfo, writeCpuDevice_present h]

end

/-! ### The cpuinfo query (60 R570) -/

section
variable {s : State} {c : Fin 128} {v : Word}

theorem queryByteCheck_ok_iff (s : State) (a : Word) :
    queryByteCheck s a = .ok () ↔ physInRange s.cfg a = true ∧ present s.cfg a = true := by
  rw [queryByteCheck, bind_ok_iff]
  simp only [require_ok_iff, exists_and_left, exists_const]

theorem queryByteCheck_error {a : Word} {t : Trap} (h : queryByteCheck s a = .error t) : ∃ f, t = .exc (.pf f) := by
  rw [queryByteCheck] at h
  cases hr : physInRange s.cfg a with
  | false =>
    rw [hr, require_false, bind_error] at h
    exact ⟨_, (Except.error.inj h).symm⟩
  | true =>
    rw [hr, require_true, bind_ok] at h
    obtain ⟨-, rfl⟩ := (require_error_iff _ _ _).1 h
    exact ⟨_, rfl⟩

/-- The check passes where each of the bytes is in range and present. -/
theorem queryCheck_ok_iff (s : State) (n : Nat) : ∀ a : Word, queryCheck s a n = .ok () ↔
    ∀ i < n, physInRange s.cfg (a + BitVec.ofNat 64 i) = true ∧ present s.cfg (a + BitVec.ofNat 64 i) = true := by
  induction n with
  | zero => exact fun a => ⟨fun _ i hi => absurd hi (Nat.not_lt_zero i), fun _ => rfl⟩
  | succ n ih =>
    intro a
    have hnext (i : Nat) : a + 1 + BitVec.ofNat 64 i = a + BitVec.ofNat 64 (i + 1) := by
      rw [BitVec.add_assoc, BitVec.add_comm 1, BitVec.ofNat_add]
      rfl
    rw [queryCheck, bind_ok_iff, Nat.forall_lt_succ_left, BitVec.add_zero, ← queryByteCheck_ok_iff]
    simp only [ih, hnext]
    exact ⟨fun ⟨_, hbyte, hrest⟩ => ⟨hbyte, hrest⟩, fun ⟨hbyte, hrest⟩ => ⟨(), hbyte, hrest⟩⟩

theorem queryCheck_error {t : Trap} (n : Nat) : ∀ {a : Word}, queryCheck s a n = .error t → ∃ f, t = .exc (.pf f) := by
  induction n with
  | zero => exact fun h => nomatch h
  | succ n ih =>
    intro a h
    rw [queryCheck] at h
    cases hbyte : queryByteCheck s a with
    | error e =>
      rw [hbyte, bind_error] at h
      obtain rfl := Except.error.inj h
      exact queryByteCheck_error hbyte
    | ok _ =>
      rw [hbyte, bind_ok] at h
      exact ih h

/-- The 64 bytes that a query stores, as 8 slots (60 R570, 10 R64, R65). -/
def otherCpuImage (c : Fin 128) : List Byte := imageOf ((List.range 8).map (otherCpuSlot c))

theorem otherCpuImage_length (c : Fin 128) : (otherCpuImage c).length = 64 := by
  rw [otherCpuImage, imageOf_length, List.length_map, List.length_range]

theorem slotOf_otherCpuImage (c : Fin 128) {k : Nat} (h : k < 8) : slotOf (otherCpuImage c) k = otherCpuSlot c k :=
  slotOf_imageOf_range (otherCpuSlot c) h

/-- `cpuex3` to `cpuex6` (10 R65). -/
theorem otherCpuSlot_zero (c : Fin 128) {k : Nat} (h3 : 3 ≤ k) (h6 : k ≤ 6) : otherCpuSlot c k = 0 := if_pos ⟨h3, h6⟩

theorem otherCpuSlot_two (c : Fin 128) :
    otherCpuSlot c 2 =
      (if 4 < ((Config.otherCpuInfo c.val 2).extractLsb' 5 3).toNat then (Config.otherCpuInfo c.val 2 &&& ~~~0xe0#64) ||| 0x80#64
       else Config.otherCpuInfo c.val 2) ||| 1#64 := rfl

/-- Bit 0 of `cpuex2` is 1 (10 R64). -/
theorem otherCpuSlot_two_bit (c : Fin 128) : (otherCpuSlot c 2).getLsbD 0 = true := by
  rw [otherCpuSlot_two, BitVec.getLsbD_or, show (1#64).getLsbD 0 = true from rfl, Bool.or_true]

/-- VAS of `cpuex2` is at most 4 (10 R64). -/
theorem otherCpuSlot_two_vas (c : Fin 128) : ((otherCpuSlot c 2).extractLsb' 5 3).toNat ≤ 4 := by
  rw [otherCpuSlot_two, BitVec.extractLsb'_or, show (1#64).extractLsb' 5 3 = 0#3 from rfl, BitVec.or_zero]
  split
  · rw [BitVec.extractLsb'_or, BitVec.extractLsb'_and, show (~~~0xe0#64).extractLsb' 5 3 = 0#3 from rfl, BitVec.and_zero]
    decide
  · omega

/-- A query of an inactive CPU is the check of the 64 bytes and their store. -/
theorem writeCpuInfoQuery_of_inactive (ha : cpuActive s c = false) :
    writeCpuInfoQuery s c v = (do
      queryCheck s v 64
      .ok { s with mem := s.mem.writeBytes ((List.range 64).map fun i => v.toNat + i) (otherCpuImage c) }) := by
  rw [writeCpuInfoQuery, ha, Bool.not_false, require_true, bind_ok, otherCpuImage, imageOf, List.flatMap_map]

theorem writeCpuInfoQuery_outside (ha : cpuActive s c = false)
    (h : ∃ i < 64, physInRange s.cfg (v + BitVec.ofNat 64 i) = false) :
    ∃ f, writeCpuInfoQuery s c v = .error (.exc (.pf f)) := by
  obtain ⟨i, hi, hr⟩ := h
  rw [writeCpuInfoQuery_of_inactive ha]
  cases hcheck : queryCheck s v 64 with
  | ok _ => exact absurd ((queryCheck_ok_iff s 64 v).1 hcheck i hi).1 (Bool.eq_false_iff.1 hr)
  | error t =>
    obtain ⟨f, rfl⟩ := queryCheck_error 64 hcheck
    exact ⟨f, bind_error _ _⟩

end

/-- Settles O60: the device by its address, then its read and its write; an enabled or active CPU by `cpuActive`. -/
theorem devices : Obligations.Devices := by
  intro s c v n rlpAt cecwAt infoAt
  refine ⟨ioRead_cpuCount s, ioWrite_cpuCount s n v, fun a hlow hcount hcpu hquery => ?unassigned,
    fun habsent a ha => ⟨ioRead_absent habsent ha n, ioWrite_absent habsent ha n⟩, fun h0 hc hdisabled => ?disabled,
    fun h0 hc hinactive hactive hreserved => ?refused, fun h0 hc hv hr hinactive => ?reserved,
    fun hc hn a ha => ioWrite_size hc hn ha, fun h0 hc hinactive => ?query, fun hc => ?reads, fun h0 henabled hc => ?enabled,
    fun h0 h h' hc a ha => ioWrite_active hc ((cpuActive_iff s c).2 (.inr ⟨h, h'⟩)) ha,
    fun h0 a ha => ioWrite_active (h0 ▸ Nat.zero_le _) ((cpuActive_iff s c).2 (.inl h0)) ha, fun a hhigh => ?high⟩
  case unassigned =>
    have hnone := deviceAt_eq_none s.cfg hlow hcount hcpu hquery
    exact ⟨ioRead_of_none hnone n, ioWrite_of_none hnone n v⟩
  case disabled =>
    have hinactive : cpuActive s c = false := cpuActive_eq_false h0 fun h => Bool.eq_false_iff.1 hdisabled h.1
    have hpointer := (ioWrite_loadPointer hc v).trans (writeLoadPointer_of_disabled hinactive hdisabled)
    have hword := ioWrite_controlWord hc v
    refine ⟨fun hr => ?pointer, fun hr => ?pointerRange, fun hv ha hm => ?word, fun hv ha => ?activeOnly, fun hv hr hm => ?enable⟩
    case pointer =>
      rw [hr] at hpointer
      have hread := ioRead_loadPointer (s := { s with rlp := s.rlp.set c.val v }) hc
      refine ⟨_, hpointer, hread.trans (Vector.getElem_set_self c.isLt), rfl, fun d hd => ?_⟩
      exact Vector.getElem_set_ne c.isLt d.isLt (Fin.val_ne_of_ne hd.symm)
    case pointerRange => rw [hpointer, hr, require_false, bind_error]
    case word =>
      have henabled : cpuEnabled s c = false := hdisabled
      rw [writeControlWord_of_valid hinactive (.inl ha) (.inl hv), hm, hv, henabled] at hword
      have hread := ioRead_controlWord (s := { s with cecw := s.cecw.set c.val v }) hc
      rw [controlWordRead_other h0] at hread
      refine ⟨_, hword, hread.trans (Vector.getElem_set_self c.isLt), rfl, fun d hd => ?_⟩
      exact Vector.getElem_set_ne c.isLt d.isLt (Fin.val_ne_of_ne hd.symm)
    case activeOnly => exact hword.trans (writeControlWord_activeOnly hinactive hv ha)
    case enable =>
      rw [hword, writeControlWord_of_valid hinactive (.inr hv) (.inr hr), hm, hv]
      rfl
  case refused =>
    have hword := (ioWrite_controlWord hc v).trans (writeControlWord_of_valid (cpuActive_eq_false h0 hinactive) hactive hreserved)
    refine ⟨fun hm => ?machineBits, fun hm he => ?enable⟩
    case machineBits => rw [hword, beq_eq_false_iff_ne.2 hm, require_false, bind_error]
    case enable =>
      have henabled : cpuEnabled s c = true := he
      rw [hword, hm, henabled, Bool.or_true]
      rfl
  case reserved => exact (ioWrite_controlWord hc v).trans (writeControlWord_reserved (cpuActive_eq_false h0 hinactive) hv hr)
  case query =>
    have hidle := cpuActive_eq_false h0 hinactive
    have hquery := ioWrite_cpuInfo hc v
    refine ⟨fun hbytes => ⟨otherCpuImage c, otherCpuImage_length c, ?stored, fun k h3 h6 => ?zero, ?bit, ?vas⟩,
      fun houtside => ?outside⟩
    case stored => exact hquery.trans (by rw [writeCpuInfoQuery_of_inactive hidle, (queryCheck_ok_iff s 64 v).2 hbytes, bind_ok])
    case zero => rw [slotOf_otherCpuImage c (by omega), otherCpuSlot_zero c h3 h6]
    case bit => rw [slotOf_otherCpuImage c (by decide), otherCpuSlot_two_bit]
    case vas => exact slotOf_otherCpuImage c (k := 2) (by decide) ▸ otherCpuSlot_two_vas c
    case outside =>
      obtain ⟨f, hf⟩ := writeCpuInfoQuery_outside hidle houtside
      exact ⟨f, hquery.trans hf⟩
  case reads =>
    have hword := ioRead_controlWord hc
    refine ⟨ioRead_loadPointer hc, fun h0 => hword.trans (controlWordRead_other h0), fun h0 => ?_⟩
    exact ⟨hword ▸ controlWordRead_zero_enabled h0, hword ▸ controlWordRead_zero_reserved h0⟩
  case enabled => exact (ioWrite_loadPointer hc v).trans (writeLoadPointer_of_enabled (.inr henabled))
  case high =>
    have hdevice := deviceAt_high s.cfg hhigh
    refine ⟨?write, fun hnone => ?absent, fun hsome => ?present⟩
    case write =>
      cases hd : machineDevice s.cfg a with
      | false => exact ioWrite_of_none (hdevice.trans (by rw [hd]; rfl)) n v
      | true => exact ioWrite_of_machine (hdevice.trans (by rw [hd]; rfl)) n v
    case absent => exact ioRead_of_none (hdevice.trans (by rw [machineDevice_eq_false s.cfg hnone]; rfl)) n
    case present => exact ioRead_of_machine (hdevice.trans (by rw [(machineDevice_iff s.cfg a).2 hsome]; rfl)) n

end Sys2Proof.Machine
end

section
/-!
Taking exceptions and interrupts: what an entry leaves, and what each delivery gives for each answer of its entry, O14, O15, O16.
-/

namespace Sys2Proof.Machine

/-! ### What an entry leaves (60 R533) -/

section
variable (s : State) (ps : List Nat) (frame : List Byte) (sp target : Word)

/-- An entry loads the stack pointer. -/
theorem getGpr_enterSupervisor_same : getGpr (enterSupervisor s ps frame sp target) 7 = sp :=
  getGpr_setGpr_same { s with mem := s.mem.writeBytes ps frame, mode := supervisorMode s.mode, halted := false } 7 sp

/-- An entry keeps the other general registers. -/
theorem sameGprsBut_enterSupervisor : SameGprsBut [7] s (enterSupervisor s ps frame sp target) := fun _ hr =>
  getGpr_setGpr_other { s with mem := s.mem.writeBytes ps frame, mode := supervisorMode s.mode, halted := false } 7 _ sp
    (by simpa using hr)

end

/-! ### When an entry is made, and when not (60 R521, R532, R533) -/

section
variable {s : State} {v : Nat}

theorem itabEntry_misaligned (h : s.itabp.extractLsb' 0 5 ≠ 0#5) : itabEntry s v = .error .misaligned := if_neg h

theorem itabEntry_outside {extent : Word} (ha : s.itabp.extractLsb' 0 5 = 0#5) (hx : physRead8 s s.itabp = .ok extent)
    (hv : min extent.toNat 2048 < 32 * (v + 1)) : itabEntry s v = .error .outOfBounds := by
  rw [itabEntry, if_pos ha, hx]
  exact if_neg (Nat.not_le.2 hv)

/-- What keeps the table entry from being read keeps the entry from being made. -/
theorem enter_of_itabEntry_error {x : Escalation} (h : itabEntry s v = .error x) (ip flags sp : Word) :
    enter s v ip flags sp = .error x := by
  rw [enter, h]
  rfl

/-- The converse of `enter_ok`: with its checks passed, the entry is made. -/
theorem enter_of_checks {e : ItabEntry} {ps : List Nat} (he : itabEntry s v = .ok e)
    (hps : translateAll s false .write (frameStack s e.sp - 32) 32 = .ok ps) (ht : checkTarget s false e.ip = .ok ())
    (ip flags sp : Word) :
    enter s v ip flags sp =
      .ok (enterSupervisor s ps (frameBytes ip s.mode flags sp) (frameStack s e.sp - 32) e.ip) := by
  simp only [enter, he, bind, Except.bind, hps, ht]

end

/-- Settles O14: the checks make the entry, which stores the frame and enters supervisor mode. -/
theorem entrySequence : Obligations.EntrySequence := by
  intro s v ip flags sp e ps he hps ht
  obtain ⟨hframe, hmem⟩ := frame_stored hps ip s.mode flags sp
  exact ⟨_, enter_of_checks he hps ht ip flags sp, rfl, getGpr_enterSupervisor_same .., hframe, supervisorMode_bit s.mode, hmem,
    sameGprsBut_enterSupervisor s ps _ _ _, rfl, rfl, rfl, rfl⟩

/-! ### What a delivery gives for each answer of its entry (60 R521, R522, R534, R535) -/

section
variable {s t : State} {v : Nat} {ip : Word}

theorem deliverException_entered (h : enter s v ip s.flags (getGpr s 7) = .ok t) : deliverException s v ip = t := by
  rw [deliverException, h]

theorem deliverException_misaligned (h : enter s v ip s.flags (getGpr s 7) = .error .misaligned) :
    deliverException s v ip = resetCpu s := by
  rw [deliverException, h]

theorem deliverException_outside (h : enter s v ip s.flags (getGpr s 7) = .error .outOfBounds) :
    deliverException s v ip = deliverAbort s := by
  rw [deliverException, h]

theorem deliverException_servicing (h : enter s v ip s.flags (getGpr s 7) = .error .servicing) :
    deliverException s v ip = deliverAbort s := by
  rw [deliverException, h]

theorem deliverInterrupt_entered (h : enter s v ip s.flags (getGpr s 7) = .ok t) (protIp : Word) :
    deliverInterrupt s v ip protIp = t := by
  rw [deliverInterrupt, h]

theorem deliverInterrupt_misaligned (h : enter s v ip s.flags (getGpr s 7) = .error .misaligned) (protIp : Word) :
    deliverInterrupt s v ip protIp = resetCpu s := by
  rw [deliverInterrupt, h]

theorem deliverInterrupt_outside (h : enter s v ip s.flags (getGpr s 7) = .error .outOfBounds) (protIp : Word) :
    deliverInterrupt s v ip protIp = deliverProt s protIp := by
  rw [deliverInterrupt, h]

theorem deliverInterrupt_servicing (h : enter s v ip s.flags (getGpr s 7) = .error .servicing) (protIp : Word) :
    deliverInterrupt s v ip protIp = if v = 16 then { s with ip := ip, halted := false } else deliverAbort s := by
  rw [deliverInterrupt, h]

end

/-- The entry of ABRT: `fcode` is 0, and what is saved is free (60 R511). -/
abbrev abortEntry (s : State) : Except Escalation State :=
  enter { s with fcode := 0 } 0 (Config.abortIp s.freeCtr) (Config.abortFlags s.freeCtr) (Config.abortSp s.freeCtr)

section
variable {s : State}

theorem deliverAbort_entered {t : State} (h : abortEntry s = .ok t) : deliverAbort s = t := by
  unfold abortEntry at h
  rw [deliverAbort, h]

theorem deliverAbort_failed {x : Escalation} (h : abortEntry s = .error x) : deliverAbort s = resetCpu s := by
  unfold abortEntry at h
  rw [deliverAbort, h]

/-- The table is read as it is whatever `fcode` is, so an entry of vector 0 that cannot be read fails ABRT too. -/
theorem deliverAbort_of_itabEntry_error {x : Escalation} (h : itabEntry s 0 = .error x) : deliverAbort s = resetCpu s := by
  have hfcode : itabEntry { s with fcode := 0 } 0 = .error x := h
  exact deliverAbort_failed (enter_of_itabEntry_error hfcode _ _ _)

end

/-- A vector outside the table: ABRT for an exception, PROT for an interrupt, and reset for ABRT itself (60 R521, R535). -/
theorem deliveries_outside {s : State} {v : Nat} (h : itabEntry s v = .error .outOfBounds) (ip protIp : Word) :
    deliverException s v ip = deliverAbort s ∧ deliverInterrupt s v ip protIp = deliverProt s protIp ∧
      (v = 0 → deliverAbort s = resetCpu s) :=
  have hentry := enter_of_itabEntry_error h ip s.flags (getGpr s 7)
  ⟨deliverException_outside hentry, deliverInterrupt_outside hentry protIp,
    fun hv => deliverAbort_of_itabEntry_error (hv ▸ h)⟩

/-- A misaligned table resets the CPU whatever is delivered (60 R522). -/
theorem deliveries_misaligned {s : State} (h : s.itabp.extractLsb' 0 5 ≠ 0#5) (v : Nat) (ip protIp : Word) :
    deliverAbort s = resetCpu s ∧ deliverException s v ip = resetCpu s ∧ deliverInterrupt s v ip protIp = resetCpu s :=
  have hentry := enter_of_itabEntry_error (itabEntry_misaligned (v := v) h) ip s.flags (getGpr s 7)
  ⟨deliverAbort_of_itabEntry_error (itabEntry_misaligned h), deliverException_misaligned hentry,
    deliverInterrupt_misaligned hentry protIp⟩

/-- A CPU that was reset is in supervisor mode. -/
theorem resetCpu_xm (s : State) : (resetCpu s).xm = false := (Delivered.reset (s := s) s.mem).xm

/-- Settles O16: each answer of the entry decides the delivery, and a table entry that cannot be read is an answer of the entry. -/
theorem escalation : Obligations.Escalation := by
  refine ⟨fun s v ip protIp extent => ⟨fun h => ?misaligned, fun ha hx hv => ?outside, ?reset⟩, fun s v ip protIp h => ?servicing,
    fun s t v ip protIp h => ?entered, fun s => ⟨fun t h => deliverAbort_entered h, fun x h => deliverAbort_failed h⟩⟩
  case misaligned => exact deliveries_misaligned h v ip protIp
  case outside => exact deliveries_outside (itabEntry_outside ha hx hv) ip protIp
  case reset => exact ⟨rfl, rfl, resetCpu_xm s, rfl, rfl, rfl, rfl, rfl, rfl, rfl, rfl, rfl, rfl, rfl, rfl⟩
  case servicing => exact ⟨deliverInterrupt_servicing h protIp, deliverException_servicing h⟩
  case entered => exact ⟨deliverException_entered h, deliverInterrupt_entered h protIp⟩

/-- Settles O15: each exception is delivered through its vector, PF with nothing to write at `pfcharp` 0. -/
theorem exceptionVectors : Obligations.ExceptionVectors := by
  refine fun s t => ⟨fun h => ?und, fun h => ?prot, fun i hp h => ?pf, fun a h => ?xa, fun h => ?div⟩
  case und => exact deliverException_entered h
  case prot => exact deliverException_entered h
  case pf => exact (takeException_pf_written (writeFaultInfo_none hp)).trans (deliverException_entered h)
  case xa => exact deliverException_entered h
  case div => exact deliverException_entered h

end Sys2Proof.Machine
end
